-- ==== Sys2Proof/Word.lean ====
section
/-! DEFINITION. The plain types the whole model is written over: bytes, 64-byte lines, and the identifiers of
Table 00-5 (R18): host ports, slices, channels, dies and banks. -/

namespace Sys2Proof

/-- One byte. -/
abbrev Byte := BitVec 8

/-- A 64-byte line: byte `i` is bits `8i+7 … 8i`. -/
abbrev Line := BitVec 512

/-- A host port HP0–HP7 (R18). HPk attaches to slice k. -/
abbrev Port := Fin 8

/-- A slice 0–7 (R18). -/
abbrev SliceId := Fin 8

/-- A channel j of a slice; MC(16k + j) is channel j of slice k (R18). -/
abbrev ChanId := Fin 16

/-- A Pliza die of a channel (R18). -/
abbrev DieId := Fin 8

/-- A bank of a die (R18). -/
abbrev BankId := Fin 16

/-- The all-zero line. -/
abbrev zeroLine : Line := 0#512

/-- A sparse table: pairs of a key and a value, keys strictly rising, no value equal to the default of its table. -/
abbrev SMap (α : Type) := List (Nat × α)

end Sys2Proof
end

