-- ==== Sys2Proof/Syntax.lean ====
section
/-! DEFINITION. The commands the block takes: one constructor for each row of spec/opcode_table.json, in the table's
order. An operand is what arrives from outside with the command: a host's request, a payload, a level held for a
time, a codeword that a die sent, a measurement. -/

namespace Sys2Proof

/-- Who rings a mailbox: a head, or the I3C sideband (R369). -/
inductive Src where
  | head (p : Port)
  | i3c
deriving DecidableEq, Repr

/-- What a lookup in the descriptor lookaside cache found wrong with the entry it hit (R104). -/
inductive DescErr where
  | none
  | tagParity
  | oneBit
  | twoBits
deriving DecidableEq, Repr

/-- What a read from a die brought back: the 640 raw bits of the codeword asked for, the reliability bits of a
READ_SOFT (Table 05-8), and the offsets measured into TS31 by a measured read (R171). -/
structure Sense where
  bits : BitVec 640
  rel  : BitVec 640
  off  : BitVec 24
deriving DecidableEq, Repr

/-- The reference clock of a link (Table 02-1): common, separate without spread spectrum, or separate with independent spread spectrum,
which the ports do not support. -/
inductive RefClock where
  | common
  | separate
  | separateSpread
deriving DecidableEq, Repr

/-- The link options a host offers (R41); its flit modes by rate: bit 0 for 8 GT/s, 1 for 16, 2 for 32 and 3 for 64. -/
structure LinkCaps where
  x16 : Bool
  x8 : Bool
  x4 : Bool
  g64 : Bool
  g32 : Bool
  g16 : Bool
  g8 : Bool
  flitLo256 : BitVec 4
  flit256 : BitVec 4
  flit68 : BitVec 4
  clock : RefClock
deriving DecidableEq, Repr

/-- The four event logs of a head (R54). -/
inductive LogId where
  | informational
  | warning
  | failure
  | fatal
deriving DecidableEq, Repr

/-- One log's event interrupt setting: mode 0 none, 1 MSI-X, 2 firmware interrupt (Table 11-6, opcode 0x0103). -/
structure IntPolicy where
  mode   : BitVec 2
  vector : BitVec 4
deriving DecidableEq, Repr

/-- The part of an image a Transfer FW carries (R370): full, first, middle, last or abort. -/
inductive XferAction where
  | full
  | initiate
  | continue
  | finish
  | abort
deriving DecidableEq, Repr

/-- The programmable alert thresholds of Table 11-6, opcode 0x4202. -/
structure AlertCfg where
  lifeUsed     : BitVec 8
  overTemp     : BitVec 16
  underTemp    : BitVec 16
  corrVolatile : BitVec 16
  corrPersist  : BitVec 16
deriving DecidableEq, Repr

/-- The fields a host writes when it commits an HDM decoder (R45, R46). -/
structure HdmReq where
  base  : Nat
  size  : Nat
  skip  : Nat
  ways  : Nat
  gran  : Nat
  lock  : Bool
deriving DecidableEq, Repr

/-- A JTAG debug memory access or a run of the internal copy engine (R354). -/
inductive DebugOp where
  | read (dpa : Nat) (rs : List Sense)
  | write (dpa : Nat) (data : Line)
  | copy (src dst : Nat) (rs : List Sense)
deriving DecidableEq, Repr

/-- What the start step attempted acts on: the package's start, or the start of one slice after a slice reach. -/
inductive BootTgt where
  | package
  | slice (k : SliceId)
deriving DecidableEq, Repr

/-- A page as a verification read it (R238): the 48 bytes of its tag, and its codewords by line of the page. -/
structure PageRead where
  tag : List Byte
  cws : List (BitVec 640)
deriving DecidableEq, Repr

/-- What the recovery scan of step 09 read of a candidate block (R242): its place, the 48 bytes of the tags of its pages 0 and 1,023,
and where these close it every page of it, by row. -/
structure FoldScan where
  slice : Nat
  chan : Nat
  die : Nat
  blk : Nat
  first : List Byte
  last : List Byte
  rows : List PageRead
deriving DecidableEq, Repr

/-- A journal page tag read after an incomplete flush (R234): slice, die (channel·8 + die), place, and the 48 bytes read. -/
structure TagScan where
  slice : Nat
  cd : Nat
  jblock : Nat
  jpage : Nat
  tag : List Byte
deriving DecidableEq, Repr

/-- What one attempt of a channel's training found (R181, R182): the passing windows of its sweeps, first and last step that passed in 1/64 UI: of the launch
delays of the six CA bits and then of the two CS lines (step 6); of DQS gating of each group, of the receive delay of each DQ bit, group by group, and of the
receive reference of each group (step 7); the step at which DQS met CK in each group (step 8); of the launch delay of each DQ bit, group by group, and of each
die's VREF_DQ (step 9); and the replies of a die to the PAT_READ of a pair and its repeats, where one brought back other than the pattern (step 10). -/
structure TrainTry where
  ca    : List (Nat × Nat)
  gate  : List (Nat × Nat)
  rx    : List (Nat × Nat)
  rxRef : List (Nat × Nat)
  dqs   : List Nat
  tx    : List (Nat × Nat)
  vref  : List (Nat × Nat × Nat)
  pats  : List (Nat × List (List Byte))
deriving DecidableEq, Repr

/-- What boot step 08 met on a channel (R181): its MC number, the replies of each die to READ_ID in turn, the attempts of its training in turn, and the
replies of each die to READ_TEMP and to STATUS. A die or channel that is not named gave no answer. -/
structure ChanTrain where
  mc    : Nat
  ids   : List (Nat × List (List Byte))
  tries : List TrainTry
  temps : List (Nat × List (List Byte))
  stats : List (Nat × List (List Byte))
deriving DecidableEq, Repr

/-- A STATUS response (R186): of which die, and the picoseconds left of the bound of the foreground read whose command it reports as refused (R189). -/
structure StatusReply where
  die   : DieId
  reply : List Byte
  left  : Nat
deriving DecidableEq, Repr

/-- What a host read meets besides its address: the bits in error of the SRAM words that it reads, and the picoseconds since the last beat event at which
the port accepts it (R195). -/
structure HostRead where
  errs : List Nat
  ps   : Nat
deriving DecidableEq, Repr

/-- A segment header copy as an SRAM read brought it back where that is not what was written (R148): frame, copy A or B, its 64 bytes, and the bits in
error in each of its eight words. -/
structure HdrRead where
  frame : Nat
  isA   : Bool
  bytes : List Byte
  errs  : List Nat
deriving DecidableEq, Repr

/-- A spill record as an SRAM read brought it back where that is not what was written (R148): entry, its 64 bytes, and the bits in error in each of its
eight words. -/
structure SpillRead where
  entry : Nat
  bytes : List Byte
  errs  : List Nat
deriving DecidableEq, Repr

/-- What the rebuild of a directory set meets (R148–R150): the set, its header copies that do not read back as written, its frames whose tag shadow
cannot be read, and how many of the requests that follow to the set reached it while it was rebuilt. -/
structure SetRead where
  set     : Nat
  hdrs    : List HdrRead
  shadows : List Nat
  late    : Nat
deriving DecidableEq, Repr

/-- What the drain of a page reads (R144, R147–R149, R227): the reads of the lines copied or merged, by line of the page; the header copies and spill records
that do not read back as written; the frames whose tag shadow cannot be read; and the bits in error in the words of a line copied, by line of the page, of the
leaf-parent of the page's group (64) and of its leaf (65). -/
structure DrainRead where
  olds    : List (Nat × List Sense)
  hdrs    : List HdrRead
  records : List SpillRead
  shadows : List Nat
  errs    : List (Nat × List Nat)
deriving DecidableEq, Repr

/-- A register read: its offset, and whether it is an aligned 64-bit access (R77). -/
structure RegAt where
  off  : Nat
  wide : Bool
deriving DecidableEq, Repr

/-- A tracking of a channel (R183): where the centres of DQS gating and of receive delay of each group lie, in 1/64 UI from where training set them. -/
structure Tracked where
  chan  : ChanId
  gate0 : Int
  gate1 : Int
  rx0   : Int
  rx1   : Int
deriving DecidableEq, Repr

/-- A response that did not come (R187, R189): of which die, and the picoseconds left of the bound of the read that waits for it. -/
structure LostReply where
  die  : DieId
  left : Nat
deriving DecidableEq, Repr

/-- When a grant takes effect (R194, R208, R213): the slots that its request waited, the quarter nanoseconds since the first slot of the present owner, and the
channel controller's time, in quarter nanoseconds. -/
structure GrantAt where
  wait  : Nat
  since : Nat
  now   : Nat
deriving DecidableEq, Repr

/-- A reset or a fault of an engine that may own a channel (R204): the channel, the engine's requester in the order of Table 06-1, and the quarter nanoseconds
since its tenure's first slot. -/
structure OwnerFault where
  chan : ChanId
  rq   : Fin 6
  held : Nat
deriving DecidableEq, Repr

/-- What the reload of a pinned tree node at step 10 reads from its home (R353): slice, level, index, and what the reads of its ladder bring. A node that is not
among them reads as it was last written there. -/
structure NodeRead where
  slice : Nat
  level : Nat
  idx : Nat
  senses : List Sense
deriving DecidableEq, Repr

/-- How an attempt of a boot step ended, and what the board and the media showed it (Table 14-4). -/
structure BootOutcome where
  /-- the step's own check passed -/
  ok : Bool
  /-- a reset cut the attempt short: STATE stays started (R468) -/
  cut : Bool
  /-- slices whose part of the attempt failed (bit k) -/
  badSlices : BitVec 8
  /-- step 01: the trims left untrimmed are those of the island or the service die (R474); step 05: the service PLL did not lock -/
  service : Bool
  /-- step 01: a trim field failed its CRC in both fuse banks (R471) -/
  trimFlash : Bool
  /-- step 08: what the training of each channel met (R181) -/
  trains : List ChanTrain
  /-- step 09: factory-bad blocks (slice, channel, die, block), first inventory (R222, R246) -/
  factoryBad : List (Nat × Nat × Nat × Nat)
  /-- step 09: candidate blocks as read -/
  scans : List FoldScan
  /-- step 10: journal page tags, after an incomplete flush -/
  tags : List TagScan
  /-- step 02: shadow copies that are not valid (R481): the record's TYPE, plus 32 for copy A alone or 64 for copy B alone -/
  badRecords : List Nat
  /-- step 03: PROFILE_SEL[1:0] (R493) -/
  profileSel : BitVec 2
  /-- step 09: records (slice, MAP_SEQ) of the ring's first copy and of its second that do not read back valid (R233) -/
  badRing : List (Nat × Nat)
  badRingB : List (Nat × Nat)
  /-- step 10: header copies that read back other than written, slice first (R148) -/
  headers : List (Nat × HdrRead)
  /-- step 10: frames (slice, frame) whose tag shadow entry cannot be read (R149) -/
  shadows : List (Nat × Nat)
  /-- step 10: spill records that read back other than written, slice first (R148) -/
  records : List (Nat × SpillRead)
  /-- step 10: slots whose wrapped key fails to unwrap (R338) -/
  badWraps : List Nat
  /-- step 10: what the reload of pinned nodes reads (R353) -/
  nodes : List NodeRead
  /-- step 12: ports whose PHY is not ready (bit k) -/
  badPorts : BitVec 8
deriving DecidableEq, Repr

/-- Kinds of rail failure, KIND of Table 12-17. -/
inductive RailKind where
  | below
  | above
  | pgoodLost
  | chatter
  | noComeUp
deriving DecidableEq, Repr

/-- The triggers of the power-fail flush (R439); the operand is how long the input has held, in ns. -/
inductive FlushTrigger where
  | pwrFail (ns : Nat)
  | hold (ns : Nat)
  | thermal
deriving DecidableEq, Repr

/-- A reset source that is held and released at a pin or by the reset controller (R462). -/
inductive ResetSrc where
  | resetPin
  | perst (p : Port)
  | refclk (p : Port)
  | hot (p : Port)
deriving DecidableEq, Repr

/-- What a write's checks meet (R29, R144): the bit errors of the SRAM words that its merge reads, and its descriptor's. -/
structure WriteErrs where
  words : List Nat
  desc : DescErr
deriving DecidableEq, Repr

/-- A flit that fails its FEC at a slice, and the flits that the receiver has corrected since it was last told of (R24). -/
structure FlitLost where
  dst : SliceId
  corrected : Nat
deriving DecidableEq, Repr

/-- The replies at the end of a training, by die: READ_TEMPs and STATUSes with their CRC-8 (R178, R181). -/
structure TrainReplies where
  temps : List (Nat × List (List Byte))
  stats : List (Nat × List (List Byte))
deriving DecidableEq, Repr

/-- An arbitration decision: its channel, and quarter nanoseconds since the first slot of the present owner (R193). -/
structure DecideAt where
  chan : ChanId
  since : Nat
deriving DecidableEq, Repr

/-- A bank, and the time of its channel's controller in quarter nanoseconds (R207, R208). -/
structure BankAt where
  bank : BankId
  now : Nat
deriving DecidableEq, Repr

/-- The commands of spec/opcode_table.json, one constructor a row. -/
inductive Instr where
  | cxlMemWrite (p : Port) (hpa : Nat) (be : BitVec 64) (data : Line) (poison : Bool) (e : WriteErrs)
  | cxlMemRead (p : Port) (hpa : Nat) (r : HostRead) (de : DescErr)
  | descriptorFillLand (k : SliceId)
  | mediaReadStep (k : SliceId) (rid : Nat) (r : Sense)
  | patientReadDeadline (k : SliceId) (rid : Nat)
  | treeNodeFetch (k : SliceId) (rid : Nat) (parent : Bool) (r : Sense)
  | readFillLand (k : SliceId) (rid : Nat) (cws : List (BitVec 640))
  | backgroundRepair (k : SliceId) (rid : Nat) (r : Sense)
  | repairFrameRetry (k : SliceId)
  | directorySetRebuild (k : SliceId) (r : SetRead)
  | sramWordRewrite (k : SliceId)
  | sramPatrol (k : SliceId) (bitErrs : Nat)
  | linkTraining (p : Port) (host : LinkCaps)
  | ideKmMessage (p : Port) (mem : Bool) (key : BitVec 256)
  | ideMacFailure (p : Port) (mem : Bool)
  | gpfRequest (p : Port) (phase2 : Bool)
  | perst (p : Port)
  | hotReset (p : Port)
  | relayFecFailure (a : SliceId) (f : FlitLost)
  | relayRetrain (a b : SliceId) (ok : Bool)
  | meterWindow (p : Port)
  | shadowRefresh (p : Port) (off : Nat)
  | registerWrite (p : Port) (off : Nat) (wide : Bool) (v : BitVec 64)
  | regLowHalfRead (p : Port) (r : RegAt)
  | secAlarmClear (p : Port)
  | tqDataRead (p : Port) (wide : Bool)
  | tqFlush (p : Port) (v : BitVec 64)
  | unsupportedOpcode (src : Src) (op : BitVec 16)
  | identify (src : Src)
  | backgroundOperationStatus (src : Src)
  | getResponseMessageLimit (src : Src)
  | requestAbortBackgroundOperation (src : Src)
  | backgroundAbortBoundary (p : Port)
  | getEventRecords (src : Src) (log : LogId)
  | clearEventRecords (src : Src) (log : LogId) (all : Bool) (handles : List Nat)
  | getEventInterruptPolicy (src : Src)
  | setEventInterruptPolicy (src : Src) (inf warn fail fat : IntPolicy)
  | getFwInfo (src : Src)
  | transferFw (src : Src) (slot : Nat) (act : XferAction) (off : Nat) (data : List Byte)
  | fwTransferEnd (p : Port) (readBack : Bool)
  | activateFw (src : Src) (slot : Nat) (online : Bool)
  | fwReadyPoint (ms : Nat)
  | fwActivationTimeout (ms : Nat)
  | getTimestamp (src : Src)
  | setTimestamp (src : Src) (ns : BitVec 64)
  | getSupportedLogs (src : Src)
  | getLog (src : Src) (effects : Bool) (off len : Nat)
  | identifyMemoryDevice (src : Src)
  | getPartitionInfo (src : Src)
  | getLsa (src : Src) (off len : Nat)
  | setLsa (src : Src) (off : Nat) (data : List Byte)
  | getHealthInfo (src : Src)
  | getAlertConfiguration (src : Src)
  | setAlertConfiguration (src : Src) (cfg : AlertCfg)
  | getShutdownState (src : Src)
  | setShutdownState (src : Src) (v : Byte)
  | getPoisonList (src : Src) (base len : Nat)
  | injectPoison (src : Src) (dpa : Nat)
  | clearPoison (src : Src) (dpa : Nat) (data : Line)
  | getScanMediaCapabilities (src : Src) (base len : Nat)
  | scanMedia (src : Src) (base len : Nat)
  | getScanMediaResults (src : Src)
  | identifyExt (src : Src) (pl : List Byte)
  | profileGet (src : Src) (pl : List Byte)
  | profileSelect (src : Src) (pl : List Byte)
  | profileWrite (src : Src) (pl : List Byte)
  | regionCreate (src : Src) (pl : List Byte)
  | regionModify (src : Src) (pl : List Byte)
  | regionDestroy (src : Src) (pl : List Byte)
  | regionDestroyComplete (r : Nat)
  | regionDiscard (src : Src) (pl : List Byte)
  | discardPage (r group : Nat)
  | discardComplete (r : Nat)
  | regionQuery (src : Src) (pl : List Byte)
  | apertureSet (src : Src) (pl : List Byte)
  | writeGroupFence (src : Src) (pl : List Byte)
  | writeGroupCommit
  | keyLoad (src : Src) (pl : List Byte)
  | keyRetire (src : Src) (pl : List Byte)
  | keyRetireDrained (slot : Nat)
  | keyQuarantineEnd (slot : Nat)
  | keyQuery (src : Src) (pl : List Byte)
  | regionRekey (src : Src) (pl : List Byte)
  | rekeyChunkComplete (r : Nat)
  | epochSet (src : Src) (pl : List Byte)
  | beatStatus (src : Src) (pl : List Byte)
  | lensCalibrate (src : Src) (pl : List Byte)
  | pacerGet (src : Src) (pl : List Byte)
  | pacerSet (src : Src) (pl : List Byte)
  | arbWeightsSet (src : Src) (pl : List Byte)
  | arbParamArrive (k : SliceId) (j : ChanId)
  | arbStats (src : Src) (pl : List Byte)
  | countersConfig (src : Src) (pl : List Byte)
  | countersConfigApply (k : SliceId)
  | countersUserAccess (src : Src) (pl : List Byte)
  | ledgerRead (src : Src) (pl : List Byte)
  | ledgerWrite (src : Src) (pl : List Byte)
  | ledgerStore (src : Src) (pl : List Byte)
  | ledgerStoreEnd (us : Nat)
  | healthExt (src : Src) (pl : List Byte)
  | retireList (src : Src) (pl : List Byte)
  | sramRetire (src : Src) (pl : List Byte)
  | sramRetireComplete (k : SliceId)
  | sliceQuiesce (src : Src) (pl : List Byte)
  | sliceQuiesced (k : SliceId)
  | quiesceTimeout (k : SliceId)
  | sliceReset (src : Src) (pl : List Byte)
  | portReset (src : Src) (pl : List Byte)
  | packageReset (src : Src) (pl : List Byte)
  | packageResetAssert
  | bootRecordGet (src : Src) (pl : List Byte)
  | railLogGet (src : Src) (pl : List Byte)
  | debugUnlock (src : Src) (pl : List Byte) (dbgEn : Bool)
  | telemetryConfig (src : Src) (pl : List Byte)
  | holdupStatus (src : Src) (pl : List Byte)
  | watchdog (ms : Nat)
  | lockup
  | managementRestartComplete
  | beatEdge (high since : Nat)
  | beatCodeFrame
  | beatLost (ns : Nat)
  | derivedBeat
  | beatReturn (high since derivedAgo : Nat)
  | epochProvisional
  | exactPass (k : SliceId)
  | measuredPassBlock (k : SliceId) (key : Nat) (reply : List Byte)
  | lapBoundary (k : SliceId)
  | splitEnd (k : SliceId)
  | telemetrySnapshot
  | rhoSample (k : SliceId)
  | holdupCeilingRecompute
  | ageSweep (k : SliceId)
  | dupEntryExpire (p : Port) (tag : BitVec 16)
  | calibrationInterval (k : SliceId) (j : ChanId) (d : DieId)
  | calibrationRead (k : SliceId) (j : ChanId) (d : DieId) (blk : Nat) (reply : List Byte)
  | scrubRead (k : SliceId) (j : ChanId) (d : DieId) (blk page sector : Nat) (rs : List Sense)
  | scrubPassLate (k : SliceId) (j : ChanId) (d : DieId)
  | treeWritebackDeadline (k : SliceId) (level idx : Nat)
  | mapRecordMandatory (k : SliceId)
  | frameDirtyAgeExpire (k : SliceId) (f : Nat)
  | tempReadout (k : SliceId) (j : ChanId) (d : DieId) (reply : List Byte) (crc : Byte)
  | channelTracking (k : SliceId) (x : Tracked)
  | alertAsserted (k : SliceId) (j : ChanId) (ns : Nat) (sts : List StatusReply)
  | alertStuckTimeout (k : SliceId) (j : ChanId) (us : Nat)
  | burstLost (k : SliceId) (j : ChanId) (x : LostReply)
  | channelRetrain (k : SliceId) (j : ChanId) (t : TrainTry) (r : TrainReplies)
  | arbitrationDecision (k : SliceId) (x : DecideAt)
  | grantEffect (k : SliceId) (j : ChanId) (g : GrantAt)
  | tenureEnd (k : SliceId) (j : ChanId)
  | holdLimitCutoff (k : SliceId) (j : ChanId)
  | lockOwnerFault (k : SliceId) (x : OwnerFault)
  | bankResume (k : SliceId) (j : ChanId) (d : DieId) (b : BankAt)
  | runWindowStart (k : SliceId) (j : ChanId) (d : DieId) (b : BankId) (now : Nat)
  | runWindowEnd (k : SliceId) (j : ChanId) (d : DieId) (b : BankId) (now : Nat)
  | arrayOperationComplete (k : SliceId) (j : ChanId) (d : DieId) (b : BankId)
  | journalDrain (k : SliceId) (pk : Nat) (r : DrainRead)
  | drainCommit (k : SliceId) (j : ChanId) (d : DieId)
  | journalWriteFail (k : SliceId) (j : ChanId) (d : DieId)
  | foldOpen (k : SliceId) (key : Nat)
  | foldPageProgram (k : SliceId) (j : ChanId) (d : DieId) (olds : List (Nat × List Sense))
  | foldRowVerify (k : SliceId) (j : ChanId) (row : Nat) (pages : List (DieId × PageRead))
  | foldCommit (k : SliceId) (j : ChanId) (d : DieId)
  | blockReset (k : SliceId) (j : ChanId) (d : DieId) (blk : Nat)
  | gcStart (k : SliceId) (j : ChanId) (d : DieId)
  | gcPageCopy (k : SliceId) (j : ChanId) (d : DieId) (olds : List (Nat × List Sense)) (back : PageRead)
  | gcRelease (k : SliceId) (j : ChanId) (d : DieId)
  | mapJournalCopy (k : SliceId)
  | checkpoint (k : SliceId)
  | groupReencryption (k : SliceId) (group : Nat) (olds : List (Nat × List Sense))
  | treeNodeWriteback (k : SliceId) (level idx : Nat) (r : DrainRead)
  | powerOnReset
  | brownOut (ns : Nat)
  | resetPin (ns : Nat)
  | dbgReset (warm : Bool)
  | clockFailure (k : SliceId)
  | servicePllUnlock
  | dbgEnFall
  | debugMemoryAccess (op : DebugOp)
  | bootStepAttempt (tgt : BootTgt) (step : Fin 14) (o : BootOutcome)
  | bootRecordUart
  | coldStartPrecondition (ms : Nat)
  | railGroupEnable
  | railUpTimeout (r : Fin 20) (us : Nat)
  | epochWaitEnd
  | railSample (r : Fin 20) (mv : Nat)
  | railWarning (r : Fin 20) (mv ns : Nat)
  | railFailure (r : Fin 20) (kind : RailKind)
  | railRecoveryAttempt (r : Fin 20) (ms : Nat)
  | railRecovered (r : Fin 20) (ms : Nat)
  | sramArrayRailLoss
  | pmbAlert (r : Fin 20) (word : BitVec 16) (ok : Bool)
  | powerFailTrigger (t : FlushTrigger)
  | acceptanceWindowClose (ns : Nat)
  | flushSliceDone (k : SliceId)
  | flushAbort (r : Fin 20)
  | holdupMarginMeasured (us flushUs : Nat)
  | warmReturn (ms : Nat)
  | thermalSample (readings : List (Nat × Int)) (service : Int)
  | sramTimingSetChange (k : SliceId)
  | keeperWrite (bytes : List Byte)
  | keeperRead (n : Nat)
  | hdmDecoderCommit (p : Port) (i : Fin 8) (d : HdmReq)
  | frOverBound (k : SliceId) (rid : Nat)
  | refclkStop (p : Port)
  | jtagBoundaryScanInstruction (selected : Bool)
  | resetSourceRelease (src : ResetSrc)
deriving DecidableEq, Repr

end Sys2Proof
end

