-- ==== Sys2Proof/Config.lean ====
section
/-! DEFINITION. The free values of the model: opaque constants without a body, each a value that the spec leaves open
(log entry 3 names them all). The first argument of those that draw afresh is the draw number `State.free`. -/

namespace Sys2Proof.Config

/-- A draw from the device's random source (R121 salt, R337 device key, R284 page), `w` bits wide. -/
opaque random : Nat → (w : Nat) → BitVec w

/-- An open value of `w` bits: what the spec does not state. -/
opaque freeValue : Nat → (w : Nat) → BitVec w

/-- An open natural number (the estimated time of Get Scan Media Capabilities). -/
opaque freeNat : Nat → Nat

/-- The UUID of vendor event records (R54): reported, never stated. -/
opaque eventUuid : BitVec 128

/-- A byte of a ledger page whose layout Table 15-2 leaves open: page, offset, draw. -/
opaque ledgerByte : Nat → Nat → Nat → Byte

/-- The default of a Lens entry carried in the firmware image (R281): mode (true 1-bit), age band, temperature band,
threshold 0–2, in 1/16 units; the image and the die revision come first. -/
opaque lensDefault : List Byte → BitVec 8 → Bool → Nat → Nat → Nat → BitVec 12

/-- Whether an ECDSA P-384 signature verifies (R362): public key, digest, signature. -/
opaque ecdsaVerify : List Byte → BitVec 384 → List Byte → Bool

/-- The four least reliable bit positions of a soft read (Table 08-7): hard bits and reliability bits. -/
opaque leastReliable : BitVec 640 → BitVec 640 → Fin 4 → Fin 640

/-- Ozhalen's PCI-SIG vendor identifier, which R43 names and does not give. -/
opaque vendorId : BitVec 16

/-- What a CXL component register of the window reads as, offset and draw, where only CXL 3.1 gives it. -/
opaque cxlRegister : Nat → Nat → BitVec 64

/-- What decides which two words of a line each SRAM die holds, where R110 leaves it open: word number in the line. The dies take the words
two by two in the order of these keys (`Machine.sramDie`). -/
opaque sramKey : Nat → Nat

/-- What the trim holds of an SRAM timing set (R519): slice, band, SRAM die; the echo-clock capture delay and the write data launch delay. -/
opaque sramTrim : Nat → Nat → Nat → Nat × Nat

/-- CHECK of an SRAM word, over POISON and DATA: the double-error-correcting BCH code of Table 04-1, whose generator is not given. -/
opaque sramCheck : BitVec 65 → BitVec 14

/-- What a word of the free lists' area holds (Table 04-2), whose layout is not given: the blocks that are free, and the number of the word in the area. -/
opaque freeListWord : List Nat → Nat → BitVec 64

/-- What the code makes of an SRAM word with three or more bits in error (R146): none where it detects it; else whether it takes
the error for one of two bits, and the data it gives. -/
opaque miscorrected : Nat → Option (Bool × BitVec 64)

/-- The register that a training's PRBS-15 pattern starts from (R181). -/
opaque prbsSeed : BitVec 15

/-- The ledger pages that fail their read-back twice in one store past the rated count (R487). -/
opaque readBackFails : Nat → List Nat

/-- The image that manufacture writes to firmware area 0. -/
opaque factoryImage : List Byte

/-- Free value: the codeword that a sweep's READs give with each threshold in the valley found, and which of its bits are the least reliable (R285). -/
opaque valley : List (BitVec 640) → BitVec 640 × BitVec 640

end Sys2Proof.Config
end

