-- ==== Sys2Proof/Machine/State.lean ====
section
/-! DEFINITION. The state of the block: every register, table, queue, counter, mode and pin that the spec gives the
device, as plain data, and the state right after a cold reset. -/

namespace Sys2Proof.Machine

/-- No command of this block stops the machine: the type has no constructor that any meaning raises.
`addressHole` is raised by no meaning; it would be safe (the machine stops). -/
inductive Fault where
  | addressHole
deriving DecidableEq, Repr

/-- Why a command is refused by the model. -/
inductive Refusal where
  /-- raised by the dispatch for a command without a meaning yet; safe -/
  | notModelled (mnemonic : String)
deriving DecidableEq, Repr

/-! ## Event records -/

/-- Kinds of event record (R54). -/
inductive EvKind where
  | media | module | vendor
deriving DecidableEq, Repr

/-- An event record (R54–R57, Table 17-5). `code` is CODE of Table 17-6 for a vendor record. -/
structure EvRec where
  handle : Nat
  kind : EvKind
  code : BitVec 16
  slice : BitVec 8
  unit : BitVec 8
  sub : BitVec 8
  epochUnknown : Bool
  suppressed : BitVec 16
  addr : BitVec 64
  beat : BitVec 64
  /-- timestamp in ns (R57) -/
  ts : Nat
  value1 : BitVec 64
  value2 : BitVec 64
deriving DecidableEq, Repr

/-! ## Mailbox outcomes -/

/-- Return codes of the mailbox, by the names the manual uses (R67, R365, R366, R370, R371, R376, R378). -/
inductive Rc where
  | success | backgroundStarted | invalidInput | unsupported | internalError | busy | fwTransferInProgress | fwOutOfOrder
  | fwVerificationFailed | invalidSlot | fwRolledBack | invalidHandle | invalidPhysicalAddress | injectLimit | aborted
  | invalidPayloadLength | invalidLog | interrupted | resourcesExhausted | vendorSpecific | abortNotSupported
deriving DecidableEq, Repr

/-- Where a poisoned line came from (Table 11-6, opcode 0x4300). -/
inductive PoisonSrc where
  | injected | media | internal
deriving DecidableEq, Repr

/-- What a standard command answers, by the values of Table 11-6; their layout is CXL 3.1's. -/
inductive StdReply where
  | none
  /-- component type: memory device -/
  | memoryDevice
  | background (running : Bool) (op : BitVec 16) (percent : Nat) (code : Rc) (ext : BitVec 16)
  | limit (bytes : Nat)
  | events (recs : List EvRec) (overflow : Bool) (lost firstLost lastLost : Nat)
  | policy (p : Vector IntPolicy 4)
  /-- slots, active slot, staged slot (0 none), revisions of slots 1 and 2 -/
  | firmware (slots active staged : Nat) (rev1 rev2 : List Byte)
  | timestamp (ns : Nat)
  /-- Command Effects Log only, and its size in entries -/
  | logs (entries : Nat)
  /-- opcode, policy and configuration change, background-capable -/
  | effects (l : List (BitVec 16 × Bool × Bool))
  /-- total, persistent, volatile, alignment (bytes), LSA size, event log size, poison list maximum, inject limit, DevLoad -/
  | capacity (total persistent volatile align lsa log poison inject : Nat) (devLoad : Bool)
  /-- persistent capacity, volatile capacity, change pending -/
  | partition (persistent volatile : Nat) (pending : Bool)
  | bytes (l : List Byte)
  /-- Maintenance Needed, Performance Degraded, Hardware Replacement Needed, Life Used, temperature, Dirty Shutdown Count,
  corrected volatile and persistent errors -/
  | health (maintenance degraded replaceHw : Bool) (life : Nat) (temp : Int) (dirty corrVolatile corrPersist : Nat)
  | alerts (a : AlertCfg)
  | shutdown (v : Byte)
  | poison (l : List (Nat × PoisonSrc)) (overflow : Bool) (overflowTime : Nat)
  /-- estimated time, an open value -/
  | scanTime (t : Nat)
  | scanned (l : List Nat)
deriving DecidableEq, Repr

/-! ## What leaves the device -/

/-- Output pins that a command drives (chapter 18). -/
inductive Pin where
  | replaceL | secAlarmL | thermL
  | railEn (r : Fin 20)
deriving DecidableEq, Repr

/-- One thing the device sent or drove, newest first in `State.out`. -/
inductive Out where
  /-- CXL.mem completion: port, request number, write, data, poison, DevLoad (3 Severe … 0 Light, Table 02-3), viral,
  and its bound in picoseconds from acceptance (R8, R9, R291) -/
  | cxl (p : Port) (id : Nat) (write : Bool) (data : Line) (poison : Bool) (devLoad : Fin 4) (viral : Bool) (boundPs : Nat)
  /-- MSI-X message of a vector (Table 02-2) -/
  | msix (p : Port) (v : Fin 8)
  /-- level now driven at an output pin; high false is low -/
  | pin (n : Pin) (high : Bool)
  /-- command slot on CA with chip-selects (R173–R175) -/
  | slot (k : SliceId) (j : ChanId) (cs : BitVec 2) (w : BitVec 48)
  /-- device-driven burst on DQ with its CRC (R177) -/
  | burst (k : SliceId) (j : ChanId) (bytes : List Byte)
  /-- the last PAT_WRITE and PAT_READ pair of the channel goes out again so many times (R181) -/
  | again (k : SliceId) (j : ChanId) (times : Nat)
  /-- bytes of a source's payload area, from one to another, overwritten with zero (R395) -/
  | payloadZero (src : Src) (lo hi : Nat)
  /-- vendor response: source, return code, payload -/
  | mailbox (src : Src) (code : Rc) (payload : List Byte)
  /-- standard response: source, return code, values -/
  | reply (src : Src) (code : Rc) (r : StdReply)
  /-- bytes on UART_TX (R474) -/
  | uart (bytes : List Byte)
  /-- bytes returned by the keeper, or none when it does not acknowledge (R538, R539) -/
  | keeper (bytes : Option (List Byte))
  /-- value returned by a register or queue read -/
  | reg (p : Port) (off : Nat) (v : BitVec 64)
  /-- PMBus OPERATION command to a rail's regulator: on or off (R428) -/
  | pmbus (r : Fin 20) (on : Bool)
  /-- Global Persistent Flush completion: phase 2 or phase 1 (R50) -/
  | gpf (p : Port) (phase2 : Bool)
  /-- JTAG debug access result: data, BLOCKED flag (R354) -/
  | debug (data : Line) (blocked : Bool)
  /-- HDM decoder commit result: committed or Error Not Committed (R46) -/
  | hdm (p : Port) (ok : Bool)
deriving DecidableEq, Repr

/-! ## Fused facts -/

/-- What manufacture fixes: build, grade, serial, root key, firmware anchors, over-provisioning (R3, R6, R362, R363). -/
structure Fused where
  /-- log₂ of the slice count: 3, 2 or 1 (Table 00-1) -/
  s : Fin 4
  gradeE : Bool
  serial : BitVec 64
  rootKey : BitVec 256
  svnFloor : Nat
  keyHash : Vector (BitVec 384) 4
  revoked : BitVec 4
  /-- logical blocks per bank, L (R95) -/
  l : Nat
deriving DecidableEq, Repr

/-! ## Heads -/

/-- One HDM decoder (R45, R46). -/
structure Decoder where
  committed : Bool
  lock : Bool
  base : Nat
  size : Nat
  skip : Nat
  ways : Nat
  gran : Nat
deriving DecidableEq, Repr

/-- State of an IDE stream (R60–R63). -/
inductive IdeState where
  | none | secure | insecure
deriving DecidableEq, Repr

/-- A port's IDE stream and its key. -/
structure IdeStream where
  st : IdeState
  key : BitVec 256
deriving DecidableEq, Repr

/-- Flit modes (R41). -/
inductive Flit where
  | lo256 | std256 | f68
deriving DecidableEq, Repr

/-- A trained link: lanes, GT/s, flit mode, reference clock, and whether it is in the L1 link state instead of L0 (Table 02-1). -/
structure Link where
  width : Nat
  rate : Nat
  flit : Flit
  clock : RefClock
  l1 : Bool
deriving DecidableEq, Repr

/-- One MSI-X table entry (R44). -/
structure Msix where
  addr : BitVec 64
  data : BitVec 32
  masked : Bool
deriving DecidableEq, Repr

/-- One event log (R54, R56): oldest record first, at most 256. -/
structure Log where
  recs : List EvRec
  overflow : Bool
  lost : Nat
  firstLost : Nat
  lastLost : Nat
deriving DecidableEq, Repr

/-- ZOR_ALARM of one head (Table 02-11). -/
structure Alarm where
  sec : Bool
  cause : BitVec 4
  slice : BitVec 3
  count : BitVec 8
  beat : BitVec 32
deriving DecidableEq, Repr

/-- ZOR_CAUSE of one head (Table 02-12). -/
structure Cause where
  bits : BitVec 11
  lastReach : BitVec 3
  sliceMask : BitVec 8
deriving DecidableEq, Repr

/-- Telemetry queue of one head (Table 02-17, R505–R509). -/
structure Queue where
  /-- oldest first; the flag is the hidden record-start bit -/
  q : List (BitVec 64 × Bool)
  last : BitVec 64
  underrun : Bool
  overrun : Bool
  dropped : BitVec 16
  enable : Bool
  threshold : BitVec 10
  irqEn : Bool
  sections : BitVec 16
deriving DecidableEq, Repr

/-- One entry of a duplicate table (R71, R72). `rsp` is none while the command runs. -/
structure DupEntry where
  tag : BitVec 16
  digest : BitVec 64
  rsp : Option (Rc × List Byte)
  /-- beat events at completion (R71) -/
  done : Nat
deriving DecidableEq, Repr

/-- What a running background command is doing (R366, R379). -/
inductive BgKind where
  | destroy (r : Nat) | discard (r : Nat) | rekey (r : Nat) (chunks : Nat)
  | retire (slot : Nat) (regions : Nat)
  /-- a bank (die, bank) or else a frame, and the frames it retires -/
  | sramRetire (k : SliceId) (bank : Option (Nat × Nat)) (frame count : Nat)
  | lensSweep (k : SliceId) (todo : List (Nat × Bool × Nat))
  /-- lines `lo` to `hi`, not included, read up to `next` -/
  | scan (lo hi next : Nat)
  | sliceReset (k : SliceId)
  | fwTransfer | fwActivate (slot : Nat)
deriving DecidableEq, Repr

/-- The background command of a head (R366). -/
structure Bg where
  kind : BgKind
  op : BitVec 16
  tag : BitVec 16
  digest : BitVec 64
  /-- Request Abort was accepted (R366) -/
  abort : Bool
  percent : Nat
deriving DecidableEq, Repr

/-- Background Command Status after a command ended: opcode, return code, extended status. -/
structure BgStatus where
  op : BitVec 16
  code : Rc
  ext : BitVec 16
deriving DecidableEq, Repr

/-- One head: port, link, mailbox, logs, queue (chapters 02, 11, 16). -/
structure Head where
  link : Option Link
  /-- boot step 12 has enabled the port -/
  enabled : Bool
  /-- sources holding the port reset: 0 PERST_L, 1 CXL hot reset, 2 REFCLK stopped -/
  held : BitVec 3
  dec : Vector Decoder 8
  ideMem : IdeStream
  ideIo : IdeStream
  msix : Vector Msix 8
  pba : BitVec 8
  policy : Vector IntPolicy 4
  logs : Vector Log 4
  /-- label storage area: non-zero bytes (R58) -/
  lsa : List Host.Cell
  alarm : Alarm
  cause : Cause
  viralEn : Bool
  viral : Bool
  tq : Queue
  /-- high halves latched by low-half reads, by register offset (R77) -/
  latch : SMap (BitVec 32)
  /-- base addresses written to the BAR pairs (R43) -/
  bar0 : BitVec 64
  bar2 : BitVec 64
  /-- L1 entry enabled in the function's link control -/
  l1Enable : Bool
  /-- a port reset cut the response of the command that runs in the foreground, or in the background: it is discarded (R76) -/
  muted : Bool
  mutedBg : Bool
  /-- Mailbox Interface Ready (R359) -/
  mboxReady : Bool
  /-- mailbox control: doorbell interrupt enable, background interrupt enable -/
  dbInt : Bool
  bgInt : Bool
  dup : List DupEntry
  bg : Option Bg
  bgLast : Option BgStatus
  /-- doorbells rung and held (R359, R367), oldest first -/
  doorbells : List Instr
  /-- credits granted and unused: request-with-data, request (R48, R126) -/
  credD : Nat
  credR : Nat
  /-- admissions of the metering window in progress not returned as credits (R514) -/
  window : Nat
  /-- reads in flight by request number, for discarding at a port reset -/
  inflight : List Nat
  /-- rate limits: (code, region or unit) and beat events of the last record written (R47, R89) -/
  limits : List (Nat × Nat × Nat × Nat)
  /-- registers as last shadowed, by window offset (R78, R504) -/
  shadow : SMap (BitVec 64)
  /-- MANAGE granted at start (R495) -/
  grantedManage : Bool
  /-- user-read mask bit of this head (R528) -/
  userRead : Bool
  /-- lines that the last Scan Media of this head found unreadable (Table 11-6) -/
  scanResults : List Nat
deriving DecidableEq, Repr

/-! ## Regions -/

/-- STATE of a descriptor (Table 03-2). -/
inductive RegState where
  | active | locked | rekeying | discarding | unavailable
deriving DecidableEq, Repr

/-- MODE of a descriptor. -/
inductive Mode where
  | clear | cipher | sealed
deriving DecidableEq, Repr

/-- A region descriptor (Table 03-2); a Free descriptor is absent from the table. -/
structure Desc where
  st : RegState
  /-- state to return to when a discard ends (Table 03-4) -/
  back : RegState
  mode : Mode
  patient : Bool
  spread : Bool
  localSlice : BitVec 3
  readFill : Bool
  pin : Bool
  cause : BitVec 8
  keyId : Nat
  newKey : Nat
  rmask : BitVec 8
  wmask : BitVec 8
  wear : BitVec 8
  base : Nat
  count : Nat
  rekeyPtr : Nat
  gen : BitVec 32
  beat : BitVec 64
  tag : BitVec 64
  /-- tree placement (R325, R329), per slice: (slice, seal base, tree unit base, tree units T) -/
  tree : List (Nat × Nat × Nat × Nat)
deriving DecidableEq, Repr

/-- A mapped region index entry (Table 03-1). -/
structure IndexEntry where
  region : Nat
  unitBase : Nat
deriving DecidableEq, Repr

/-- Work in progress on a region: pages (slice, page key) done by a discard or destroy (R248, R249). -/
structure Discard where
  region : Nat
  destroy : Bool
  whole : Bool
  /-- region byte range -/
  lo : Nat
  hi : Nat
  /-- groups of the range already handled -/
  handled : List Nat
  /-- this discard is the first step of a REINIT rekey to the slot named (R349) -/
  reinit : Option Nat
deriving DecidableEq, Repr

/-- One entry of a descriptor lookaside cache (R100). -/
structure CacheEntry where
  region : Nat
  pinned : Bool
  desc : Option Desc
deriving DecidableEq, Repr

/-- The one descriptor fill a slice has in flight (R101): region, the copy fetched, whether an invalidate marked it (R106), the entry that takes
it, and whether it refills a pinned entry (R102). -/
structure DescFill where
  region : Nat
  desc : Option Desc
  marked : Bool
  entry : Nat
  refill : Bool
deriving DecidableEq, Repr

/-! ## Requests and reads -/

/-- A CXL.mem request on its way (R88): accepted at a port, not completed. -/
structure Req where
  id : Nat
  port : Port
  write : Bool
  dpa : Nat
  be : BitVec 64
  data : Line
  poison : Bool
  errs : List Nat
  /-- delays of R9 and R291 met so far, ps -/
  extra : Nat
  /-- slice whose relay links carry it instead of a failed one (R25) -/
  hop : Option SliceId
  /-- when its port accepted it: beat events times 1,000,000 and the picoseconds after the last (R195) -/
  born : Nat
deriving DecidableEq, Repr

/-- A request that passed its ingress checks, with what it carries to its owning slice (R88): region, descriptor, unit base. -/
structure HeldReq where
  req : Req
  region : Nat
  desc : Desc
  unit : Nat
deriving DecidableEq, Repr

/-- The six requesters (R190). -/
inductive Rq where
  | fr | fw | fd | sc | cb | mx
deriving DecidableEq, Repr

/-- Why a media read was raised. -/
inductive ReadFor where
  /-- a host read -/
  | host (r : Req)
  /-- background repair of a line (R289) -/
  | repair
  /-- a counter-tree node: for the read named (R332), or for an engine; its requester; after a memory error (Table 10-8) -/
  | node (level idx : Nat) (reader : Option Nat) (rq : Rq) (memory : Bool)
  /-- a line of a head's Scan Media -/
  | scan (p : Port)
deriving DecidableEq, Repr

/-- A line's eight words: DATA, VALID and POISON bits (Table 04-1); CHECK follows from them (`sramWord`). -/
structure Words where
  data : Line
  vld : BitVec 8
  psn : BitVec 8
deriving DecidableEq, Repr

/-- A media read climbing the ladder (R285). -/
structure MediaRead where
  rid : Nat
  why : ReadFor
  line : Nat
  region : Nat
  desc : Desc
  /-- no write to the line has committed since the read's directory lookup (R133, R289) -/
  clean : Bool
  /-- what the slot held at the directory lookup when the line was Partial: its words and mask (R33, R133) -/
  slot : Option (Words × BitVec 64)
  /-- lines of the sector that a commit reached since the read was issued (R138) -/
  touched : List Nat
  chan : ChanId
  die : DieId
  block : Nat
  page : Nat
  sector : Nat
  oneBit : Bool
  trusted : Bool
  step : Nat
  /-- READ_SOFTs or sweeps tried at this step -/
  tries : Nat
  /-- step-1 offsets (R285) -/
  off : BitVec 24
  /-- what the READs of step 3 have brought (R285) -/
  sweep : List (BitVec 640)
  /-- late start (R210): begun at step 1 -/
  late : Bool
  /-- when its class bound ends, in ps from the device's first beat event taken as 10⁶ ps each (R195) -/
  expiry : Nat
  /-- it has waited for a run window (R214) -/
  waited : Bool
  /-- decoded codeword waiting for its nodes: information bits, bits corrected -/
  got : Option (BitVec 580 × Nat)
  /-- levels of the nodes still awaited (R332) -/
  nodes : List Nat
  /-- a node was not held at the directory lookup: a counter-tree miss (R333) -/
  missed : Bool
  /-- what the nodes gave for this read, held or fetched (R332): the leaf-parent's entry for the group, and the leaf's minor for the line -/
  parent : Option (BitVec 64)
  minor : Option Nat
  /-- the line's fill should land (R138): frame taken -/
  fill : Option Nat
  done : Bool
deriving DecidableEq, Repr

/-! ## Front store -/

/-- A segment header copy (Table 04-3); its CRC is computed. -/
structure SegHdr where
  seg : Nat
  present : Bool
  valid : BitVec 32
  dirty : BitVec 32
  seq : BitVec 32
  firstDirty : BitVec 48
deriving DecidableEq, Repr

/-- SRAM contents of a frame, word by word in `Front.word`: header copies, tag shadow, lines, partial masks (Tables 04-2, 04-3). -/
structure Frame where
  hdrA : SegHdr
  hdrB : SegHdr
  tagSeg : Nat
  tagPresent : Bool
  lines : SMap Words
  masks : SMap (BitVec 64)
deriving DecidableEq, Repr

/-- A directory entry (R120) with the on-die drain masks (R136). -/
structure DirEntry where
  seg : Nat
  present : Bool
  valid : BitVec 32
  dirty : BitVec 32
  draining : Bool
  filling : Bool
  retired : Bool
  drained : BitVec 32
  rewritten : BitVec 32
deriving DecidableEq, Repr

/-- A spill entry: record and line (Table 04-5). -/
structure Spill where
  line : Nat
  partially : Bool
  mask : BitVec 64
  seq : BitVec 32
  words : Words
  /-- taken by a drain (R136) and rewritten since -/
  drained : Bool
  rewritten : Bool
deriving DecidableEq, Repr

/-- An SRAM error log entry (R151): word, kind 1 or 2 once logged, and the beat events of its corrected errors in the last 2²⁰ beats. -/
structure SramErr where
  word : Nat
  kind : BitVec 2
  times : List Nat
  beat : BitVec 64
deriving DecidableEq, Repr

/-- Front store of a slice (chapter 04). -/
structure Front where
  frames : SMap Frame
  dir : SMap DirEntry
  plru : SMap (BitVec 15)
  spill : SMap Spill
  /-- the on-die spill index (R125): set times 8 plus way, and the entry -/
  spillIx : SMap Nat
  /-- what the line words of freed spill entries still hold (R109) -/
  spillOld : SMap Words
  /-- a directory set rebuilt, and how many of the next requests to it waited for that (R150) -/
  rebuiltSet : Option (Nat × Nat)
  /-- lines marked poisoned whose drain is not durable (R231): the first 2,048 stand in the on-die poison list, the others wait for room -/
  poison : List Nat
  /-- words waiting for a corrected rewrite (R144) -/
  rewrites : List Nat
  /-- next word of the patrol (R145) -/
  patrol : Nat
  errs : List SramErr
  /-- frames whose first dirty beat is older than the maximum dirty age (R310) -/
  aged : List Nat
  /-- step 07 wrote zero with VALID set in every word instead of clearing VALID (R113) -/
  zeroed : Bool
  /-- step 09 has written the table half whole (R109; log entry 69) -/
  tabled : Bool
deriving DecidableEq, Repr

/-! ## Media management -/

/-- STATE of a block map entry (Table 07-1). -/
inductive MapState where
  | unmapped | mapped | lost | dead
deriving DecidableEq, Repr

/-- A block map entry (Table 07-1). -/
structure MapEntry where
  phys : Nat
  st : MapState
  blockGen : BitVec 16
  drainGen : BitVec 16
  folding : Bool
deriving DecidableEq, Repr

/-- KIND of an overlay entry (Table 07-2). -/
inductive OvKind where
  | block | zero | poison
deriving DecidableEq, Repr

/-- An overlay entry (Table 07-2). `gen` and `seq` are those of its page's tag (R224, R225). -/
structure OvEntry where
  jblock : Nat
  jpage : Nat
  sectors : BitVec 16
  kind : OvKind
  captured : Bool
  gen : BitVec 16
  seq : BitVec 48
deriving DecidableEq, Repr

/-- USE of a block-state record (Table 07-3). -/
inductive Use where
  | released | ready | data | journal | openFold | reserved | retired
deriving DecidableEq, Repr

/-- A block-state record (Table 07-3); mode 0 not reset, 1 2-bit, 2 1-bit. -/
structure Block where
  beat : BitVec 48
  tempMax : Nat
  mode : Nat
  use : Use
  reads : Nat
  resets : Nat
  suspect : Bool
  aborted : Bool
  factoryBad : Bool
  refresh : Bool
  cause : Nat
  /-- programmed while the epoch was unfixed, or pending in a pass (R275) -/
  untrusted : Bool
  /-- beat events at release (R237 step 6) -/
  freed : Nat
deriving DecidableEq, Repr

/-- A map journal record (Table 07-6), with its MAP_SEQ and the beat events at its append. -/
inductive MapRec where
  | foldOpen (key blk : Nat) (gen : BitVec 16) (seq : BitVec 48)
  | foldCommit (key blk old : Nat) (gen : BitVec 16) (beat : BitVec 48)
  | foldAbandon (key blk : Nat)
  | blockRelease (c d b : Nat)
  | blockState (c d b : Nat) (st : Block)
  | blockRetire (c d b cause : Nat)
  | overlaySet (p : Nat) (e : OvEntry)
  | overlayClear (p : Nat)
  | mapEntry (key : Nat) (e : MapEntry)
  | linePoison (p : Nat) (mask : BitVec 64)
  /-- the region's descriptor, none when it became Free, its index entries: granule, unit base; and the CREATED_BEAT and GENERATION of this change -/
  | region (r : Nat) (d : Option Desc) (ix : List (Nat × Nat)) (born : BitVec 64) (gen : BitVec 32)
  /-- die as channel·8+die -/
  | ring (cd b : Nat) (join : Bool)
  | checkpoint (area : Bool) (seq : Nat)
deriving DecidableEq, Repr

/-- A numbered record. -/
structure MapLog where
  seq : Nat
  at' : Nat
  rec' : MapRec
deriving DecidableEq, Repr

/-- The journal of a die (R226): ring of written blocks, oldest first; the last is the head block, with its next page. -/
structure Journal where
  ring : List Nat
  headPage : Nat
  /-- blocks that joined the ring ready and are not written yet, in ring order -/
  ahead : List Nat
  /-- blocks taken and not yet written since their reset: the first write sets PROGRAM_BEAT (R220) -/
  fresh : List Nat
  /-- blocks that reported WFAIL and await collection (R230) -/
  failed : List Nat
deriving DecidableEq, Repr

/-- A table checkpoint (R233). -/
structure Checkpoint where
  seq : Nat
  bmap : SMap MapEntry
  overlay : SMap OvEntry
  blocks : SMap Block
  journals : SMap Journal
deriving DecidableEq, Repr

/-- A checkpoint being written (R233): its area, the image taken, the next page to raise, and whether a write of the last one was aborted. -/
structure CkptRun where
  area : Bool
  image : Checkpoint
  page : Nat
  bad : Bool
deriving DecidableEq, Repr

/-- A block of an open fold set (R236, R237). -/
structure FoldMember where
  die : DieId
  key : Nat
  blk : Nat
  old : Option Nat
  gen : BitVec 16
  seq : BitVec 48
  /-- next page to gather; 1024 once the last has been -/
  page : Nat
  verified : Nat
  /-- REFRESH and WEAR flags of its tags (Table 07-5) -/
  flags : Nat
  /-- bytes of the page being programmed as staged in the channel controller, with its tag contents after them; empty: none (R192) -/
  staged : List Byte
  /-- reads for its row's verification have been raised (R237) -/
  asked : Bool
  /-- beat at the end of its last page program -/
  beat : BitVec 48
  /-- its page images in the open-row parity area (R236): row, the 5,120 bytes; the parity of a row is the XOR over the members that hold one -/
  images : List (Nat × BitVec 40960)
deriving DecidableEq, Repr

/-- A line of a journal page being written: a fresh encoding (line, data, poison, major and, for Sealed, minor version),
or a codeword copied as stored. -/
inductive DrainPart where
  | fresh (line : Nat) (data : Line) (poison : Bool) (major minor : Nat)
  | stored (cw : BitVec 640)
deriving DecidableEq, Repr

/-- A changed tree node: level, index, beat events at its first change (R309). -/
structure DirtyNode where
  level : Nat
  idx : Nat
  since : Nat
  /-- its write-back is mandatory (R309) -/
  due : Bool
deriving DecidableEq, Repr

/-- A drain of one page key in flight (R227). -/
structure Drain where
  key : Nat
  die : DieId
  jblock : Nat
  jpage : Nat
  sectors : BitVec 16
  gen : BitVec 16
  seq : BitVec 48
  kind : OvKind
  /-- lines of the page (0–63) taken Dirty or Partial -/
  lines : BitVec 64
  /-- re-encryption, rekey or repeated write, not host data (Table 17-2) -/
  rewrite : Bool
  /-- the lines written, by number within the page -/
  parts : List (Nat × DrainPart)
  mandatory : Bool
  /-- a sequence of it was cut off (R206) -/
  aborted : Bool
  /-- it does a rekey's work on its page (R345) -/
  rekey : Bool
  /-- lines of the page whose poison mark or list entry the copy carries out (R231) -/
  psn : BitVec 64
  /-- changed tree nodes that it writes (R309, R330) -/
  nodes : List DirtyNode
deriving DecidableEq, Repr

/-- A journal page copied by garbage collection: page key, its new place, and whether its read-back has been raised and has passed (R241). -/
structure GcCopy where
  key : Nat
  jblock : Nat
  jpage : Nat
  seq : BitVec 48
  asked : Bool
  verified : Bool
deriving DecidableEq, Repr

/-- Garbage collection of a journal block (R241): the copies of its pages, oldest first. -/
structure Gc where
  block : Nat
  copies : List GcCopy
deriving DecidableEq, Repr

/-- An absent channel (R97): MC number, P as a mask of channels, OB. -/
structure Absent where
  mc : Nat
  p : BitVec 16
  ob : Nat
deriving DecidableEq, Repr

/-- Media configuration record. -/
structure MediaRec where
  dies : Nat
  absent : List Absent
  h : Vector Nat 8
  failed : List (Nat × Nat)
deriving DecidableEq, Repr

/-- Tables and engines of a slice's media (chapter 07). -/
structure Media where
  bmap : SMap MapEntry
  overlay : SMap OvEntry
  blocks : SMap Block
  seq : BitVec 48
  mapSeq : Nat
  /-- buffer: records not yet copied to the ring, oldest first (R232) -/
  buffer : List MapLog
  /-- map journal ring in both copies of the reserved area, die 0 of channels 0 and 8, since the last checkpoint, oldest first (R233) -/
  ring : List MapLog
  ringB : List MapLog
  /-- number of buffer records that FW requests under way copy (R233) -/
  copying : Nat
  /-- checkpoint areas A and B -/
  ckA : Option Checkpoint
  ckB : Option Checkpoint
  journals : SMap Journal
  drains : List Drain
  /-- open fold sets by channel -/
  folds : SMap (List FoldMember)
  gcs : SMap Gc
  /-- logical blocks to be folded with first priority (R235, R239) -/
  urgent : List Nat
  /-- logical blocks with REFRESH set; the flag is WEAR (R240, R253) -/
  refresh : List (Nat × Bool)
  /-- journal blocks to collect (R244, R245): channel·8+die, block -/
  collect : List (Nat × Nat)
  /-- groups whose re-encryption is under way (R334): group DPA / 4,096 -/
  reencs : List Nat
  /-- governor bucket, 1/256 lines (R254), and the fraction carried -/
  tokens : Nat
  tokenFrac : Nat
  /-- tokens given to each governed region since the regions that wait for them last changed (R254) -/
  wearGiven : SMap Nat
  /-- spare counts at inventory S0 by bank key (channel·8+die)·16+bank (R222) -/
  s0 : SMap Nat
  /-- channel health states, by channel: 0 Healthy … 4 Exhausted (R250) -/
  health : SMap Nat
  /-- failed dies, channel·8+die: every logical block of them is DEAD (R247) -/
  deadDies : List Nat
  /-- overflow logical blocks that start LOST (R98): first, end, mask of channels -/
  lostOver : List (Nat × Nat × BitVec 16)
  /-- lines committed after the channel became Exhausted (R251) -/
  lateLines : List Nat
  /-- pages waiting for room in their overlay set (R229) -/
  waiting : List Nat
  /-- blocks unreadable while SUSPECT, to be retired with cause 6 once their data has moved (R246): channel·8+die, block -/
  unreadable : List (Nat × Nat)
  /-- a map journal record not yet copied is mandatory work (R296) -/
  copyDue : Bool
  /-- lines that a LINE_POISON record names and no drain has carried out yet, by page key (R231) -/
  psnMarks : SMap (BitVec 64)
  /-- records at the end of the ring whose writes, raised for a REGION record, are still under way (R437) -/
  flying : Nat
  /-- a write to the ring was aborted or failed, so what is being copied is copied again (R206) -/
  copyBad : Bool
  /-- the checkpoint being written (R233) -/
  ckpt : Option CkptRun
  /-- the checkpoint that ends the slice's pass is written (R279) -/
  passCk : Bool
  /-- the copy of the media configuration in the reserved area (Table 15-2, R473) -/
  config : Option MediaRec
deriving DecidableEq, Repr

/-! ## Channels -/

/-- Sequences of Table 06-1. -/
inductive SeqK where
  | read | readSoft | write1 | writeTag | readTag | progLoad | pageFinish | resetBlock | readTs | status | clearAlert
  | readTemp | readId | mrr | mrw | tracking
deriving DecidableEq, Repr

/-- What a channel request works for: a media read, a drain, a fold page, a collection, a block, a die reading. -/
inductive Work where
  | read (rid : Nat) | drain (key : Nat) | fold (key : Nat) | gc (d : Nat) | reset (d b : Nat) | scrub (d : Nat)
  | calib (d : Nat) | temp (d : Nat) | alert (d : Nat) | track | mapCopy | ckpt
deriving DecidableEq, Repr

/-- A raised request (R192). -/
structure ChReq where
  rq : Rq
  sq : SeqK
  die : DieId
  block : Nat
  page : Nat
  sector : Nat
  first : BitVec 2
  ts : Nat
  payload : List Byte
  work : Work
  /-- when the class bound of an FR read ends (R195 rule 3), as `MediaRead.expiry` -/
  expiry : Nat
  mandatory : Bool
deriving DecidableEq, Repr

/-- A tenure in force: the owner's, or one that has issued its last slot (R191, R194). Times are in quarter nanoseconds. -/
structure Tenure where
  req : ChReq
  paused : Bool
  /-- hold of its present read or sequence, and of the read before it in the same tenure (R191, R202) -/
  hold : Nat
  held : Nat
  locked : Bool
  /-- from its first slot to the first slot of the present owner -/
  lead : Nat
  /-- hold limit when it was granted, in slots (R198) -/
  limit : Nat
  /-- the FR retry point is open (R209) -/
  retry : Bool
  /-- its read has begun its data transfer (R164) -/
  begun : Bool
  /-- its owner was reset: what it brings is discarded (R204) -/
  discard : Bool
  /-- from its first slot to that of its present read, at most: the step-1 read of an FR tenure follows the retry point (R194, R209) -/
  base : Nat
  /-- its response was lost (R187) -/
  lost : Bool
  /-- it was cut off, and only its die-driven burst still goes on (Sequence 06-1) -/
  cut : Bool
  /-- split in which it was charged, counted from the slice's first lap, and the slots charged (R294); none: it is never charged -/
  paid : Option (Nat × Nat)
deriving DecidableEq, Repr

/-- Statistics of one requester (Table 06-3). -/
structure RqStat where
  grants : BitVec 32
  waitSum : BitVec 48
  waitMax : BitVec 24
  holdSum : BitVec 48
  cutoff : BitVec 16
deriving DecidableEq, Repr

/-- Arbiter of a channel (chapter 06); requesters in the order FR, FW, FD, SC, CB, MX. -/
structure Arb where
  weights : Vector (BitVec 16) 6
  nextWeights : Option (Vector (BitVec 16) 6 × Nat)
  /-- weights that reached the channel and wait for the refill (R198) -/
  armed : Option (Vector (BitVec 16) 6)
  /-- hold limit in slots (R404) -/
  holdLimit : Nat
  credits : Vector Int 6
  queue : List ChReq
  chosen : Option ChReq
  owner : Option Tenure
  /-- tenures that have issued their last slot and whose last bursts are still to end, oldest first (R194) -/
  tail : List Tenure
  lastGrant : Option Rq
  stats : Vector RqStat 6
  lockAbandoned : BitVec 16
  displaced : BitVec 32
  lateStarts : BitVec 32
  pauses : BitVec 32
  overBound : BitVec 32
  /-- beat events of the last cut-off record, and cut-offs since that had none (R203, R533) -/
  lastCutRec : Option (Nat × Nat)
  /-- FR requests that the decisions have found ready, in the order in which they became so (R195 rule 3) -/
  readied : List ChReq
deriving DecidableEq, Repr

/-- Array operation of a bank (R164, R165). -/
inductive BankOp where
  | reset (b : Nat) (oneBit : Bool) | program (b page : Nat) | write (b : Nat)
deriving DecidableEq, Repr

/-- A bank with an operation: running, paused, or in its run window, or due one while reads hold its RESUME back (R208). Times are the channel
controller's, in quarter nanoseconds. -/
structure BankSt where
  op : BankOp
  paused : Bool
  window : Bool
  due : Bool
  /-- when it was last paused, or its run window began -/
  since : Nat
  /-- its earlier pauses: from, to -/
  pauses : List (Nat × Nat)
deriving DecidableEq, Repr

/-- What a die answers to READ_ID (Table 05-9). -/
structure Ident where
  part : BitVec 16
  rev : BitVec 8
  serial : BitVec 128
  /-- extended temperature grade -/
  ext : Bool
deriving DecidableEq, Repr

/-- A sector that scrub is reading (R306). -/
structure ScrubRead where
  block : Nat
  page : Nat
  sector : Nat
  /-- ladder step of its first read, and the one that its reads have reached -/
  first : Nat
  step : Nat
  /-- codewords that no step has decoded yet -/
  bad : List Nat
  /-- most bits corrected in a codeword at step 0 -/
  worst : Nat
  /-- offsets that its read of step 1 measured -/
  off : BitVec 24
deriving DecidableEq, Repr

/-- A Pliza die as the channel controller knows it (R184, R305). -/
structure Die where
  present : Bool
  failed : Bool
  ident : Option Ident
  /-- MREG0 to MREG7 as last written (Table 05-13) -/
  mreg : Vector (BitVec 8) 8
  temp : Int
  high : Int
  valid : Bool
  /-- successive READ_TEMP intervals failed (R185) -/
  tempFails : Nat
  /-- READ_TEMP replies of this interval that failed their CRC-8 (R178, R185) -/
  tempTries : Nat
  /-- READ_TS replies of the calibration operation in progress that failed their CRC-8 (R178) -/
  tsTries : Nat
  band : Nat
  /-- threshold sets TS0–TS31 as loaded (Table 05-4), and the block and page that TS31 was measured from (R171) -/
  sets : SMap (BitVec 24)
  tsPage : Option (Nat × Nat)
  lostInRow : Nat
  /-- a STATUS has been asked for and has not been answered, and its replies that failed their CRC-8 (R178, R186, R187) -/
  stWait : Bool
  stTries : Nat
  banks : SMap BankSt
  /-- scrub pass (R305, R306): the sectors remaining, by block, bit 16·page + sector each; beat events left, quota numerator in 1/2³² sectors, late passes,
  and whether this one has been counted late -/
  scrubTodo : SMap Nat
  scrubDue : Nat
  quota : Nat
  scrubLate : BitVec 16
  overdue : Bool
  /-- the sector being read by scrub -/
  scrub : Option ScrubRead
  /-- temperature at the channel's last training (R183) -/
  trainTemp : Int
  /-- last calibration, in beat events -/
  calAt : Nat
  /-- combination (mode 1-bit, band) sampled least recently first (R284) -/
  calOrder : List (Bool × Nat)
  /-- block after the one last sampled (R284) -/
  calPtr : Nat
deriving DecidableEq, Repr

/-- Pacer state of a channel (Table 09-5). -/
structure PaceCh where
  lapBudget : Nat
  splitBudget : Nat
  spent : Nat
  deficit : Nat
  lapSpent : Vector Nat 6
  mandSum : BitVec 48
  overSum : BitVec 48
  repaidSum : BitVec 48
  floorLaps : BitVec 32
  sprintLaps : BitVec 32
  /-- requesters with an unfinished operation (R297) -/
  opOpen : List Rq
  /-- the last split that ended while budgets were in force: its number, spent count and budget (R300) -/
  lastSplit : Nat × Nat × Nat
deriving DecidableEq, Repr

/-- Delays and references that training set in the channel controller (R181 steps 6 to 9), each at the centre of its passing window: CA and CS launch delays,
and their narrowest window; DQS gating and receive reference of each group, receive delay of each DQ bit; DQS launch delay of each group, launch delay of each
DQ bit. -/
structure Delays where
  ca : List Nat
  caWindow : Nat
  gate : List Nat
  rx : List Nat
  rxRef : List Nat
  dqs : List Nat
  tx : List Nat
deriving DecidableEq, Repr

/-- A media channel (chapters 05, 06, 09). -/
structure Chan where
  /-- trained and working -/
  up : Bool
  /-- narrowest training window, 1/64 UI (HEALTH_EXT) -/
  window : Nat
  dies : Vector Die 8
  arb : Arb
  pace : PaceCh
  retraining : Bool
  retrainTries : Nat
  /-- beat events of WCRC/CA_PAR events and of lost bursts (R188) -/
  errBeats : List Nat
  lostBeats : List Nat
  /-- last 64 command slots, newest first, with the request that each served (Table 05-14) -/
  slots : List (BitVec 48 × Option ChReq)
  /-- by die: the last request that carried a device-driven burst, and how often it was sent again (Table 05-14) -/
  sent : SMap ChReq
  resent : SMap Nat
  alert : Bool
  /-- beat events of the last tracking -/
  trackAt : Nat
  /-- burst slots whose class is settled and not yet counted at a beat event: retired, wasted (R525, R526) -/
  acct : Vector Nat 2
  /-- ABORTs that could not be sent, kept for the next training (R205): die, bank -/
  aborts : List (Nat × Nat)
  delays : Delays
  /-- position of DQS gating and of receive delay of each group from where training set it, 1/64 UI (R183) -/
  gate : Vector Int 2
  rx : Vector Int 2
  /-- a tracking's PAT_READs have been raised and its recentring is still to come (R183) -/
  tracking : Bool
  /-- refused slots already acted on since ALERT_L was last asserted (Table 05-14) -/
  rejects : List (BitVec 32)
  /-- time of the channel controller at the last command that gave one, quarter nanoseconds (R208) -/
  now : Nat
deriving DecidableEq, Repr

/-! ## Slices -/

/-- Pacer parameters (Table 09-4). -/
structure PaceParm where
  normal : Nat
  sprint : Nat
  idle : Nat
  maxAge : Nat
  cal : Nat
  tree : Nat
deriving DecidableEq, Repr

/-- Pacer of a slice (chapter 09). -/
structure Pacer where
  parm : PaceParm
  next : Option PaceParm
  /-- beat events since the lap opened; none before the first lap (R292) -/
  pos : Option Nat
  /-- splits of the lap that have ended, 0–4 -/
  ended : Nat
  sprint : Bool
  suspended : Bool
  laps : Nat
  /-- beat events of the last age sweep -/
  sweepAt : Nat
deriving DecidableEq, Repr

/-- One slice counter (Table 02-18). -/
structure Counter where
  event : BitVec 12
  chan : BitVec 4
  value : BitVec 48
  ovf : Bool
deriving DecidableEq, Repr

/-- Counter tree of a slice (R325–R353). -/
structure Tree where
  /-- root counters (Table 10-5) -/
  root : Vector (BitVec 64) 8
  /-- pinned nodes, levels 2–8: level · 2²⁶ + index -/
  pinned : SMap (BitVec 512)
  dirty : List DirtyNode
  rootLost : Bool
  /-- unverifiable list (R352): level, index -/
  unver : List (Nat × Nat)
  /-- pinned nodes that failed their check when they were reloaded: level, index; later reads fetch them again (R353, Table 10-8) -/
  suspect : List (Nat × Nat)
  /-- beat events of the last unverifiable record of a node -/
  unverRec : List (Nat × Nat × Nat)
  /-- free-space maps: seal ranges in use and tree top base (R325, R329) -/
  seals : List (Nat × Nat)
  top : Option Nat
  /-- regions whose major-version warning was written (R335) -/
  warned : List Nat
deriving DecidableEq, Repr

/-- Why a slice is not working. -/
inductive SliceSt where
  | working | resetting | rebuilding | lost
deriving DecidableEq, Repr

/-- Sums of a slice since the previous telemetry snapshot (Table 17-4): laps at the floor, slots retired, wasted, front-
and back-starved, longest FR wait, late starts, reads poisoned under R212, cut-offs. -/
structure Snap where
  floors : Nat
  slots : Vector Nat 4
  frWait : Nat
  late : Nat
  excess : Nat
  cut : Nat
deriving DecidableEq, Repr

/-- A slice die (chapters 01–10). -/
structure Slice where
  st : SliceSt
  /-- SLICE_OK bit -/
  ok : Bool
  clkAlive : Bool
  backupClk : Bool
  /-- quiesce state: 0 running, 1 quiescing, 2 quiesced, and beat events when quiesced (R414) -/
  quiesce : Nat
  quiescedAt : Nat
  /-- boot steps still to run for this slice after a slice reach -/
  todo : List Nat
  /-- descriptor lookaside cache (R100): 32 entries, tree bits, whether it is enabled (R105), fill in flight -/
  cache : SMap CacheEntry
  cacheTree : BitVec 31
  cacheOn : Bool
  fill : Option DescFill
  /-- regions whose pinned entries wait to be refilled (R102) -/
  refills : List Nat
  /-- requests waiting on the descriptor fill -/
  waiting : List Req
  /-- requests held while the owning slice rebuilds (R157) -/
  heldReqs : List HeldReq
  front : Front
  media : Media
  chans : Vector Chan 16
  pacer : Pacer
  tree : Tree
  reads : List MediaRead
  /-- repairs holding a recovered line until a frame is found (R289): line, data, poison -/
  holding : List (Nat × Line × Bool)
  lens : SMap (BitVec 64)
  /-- firmware image whose Lens defaults each die, by channel · 8 + die, took last (R281) -/
  lensImages : SMap (List Byte)
  counters : Vector Counter 16
  /-- COUNTERS_CONFIG not yet applied (R523): mask, action, events and channels -/
  ctrPending : Option (BitVec 16 × Nat × List (BitVec 12 × BitVec 4))
  /-- throttle percentage and the last four samples in 1/8 °C, newest first (R510, R513) -/
  pct : Nat
  samples : List Int
  sensorFailed : Bool
  sramBand : Nat
  /-- set of SRAM timings in force (R519) -/
  sramSet : Nat
  /-- flush-cost ratio samples ρ, newest first: largest cost of a channel in slots, and dirty lines (R447) -/
  rho : List (Nat × Nat)
  /-- beat events at the last sampling of ρ -/
  rhoAt : Nat
  /-- the power-fail flush has emptied this slice (R444) -/
  flushed : Bool
  /-- exact or measured pass: blocks left on this slice -/
  passTodo : List Nat
  /-- sums since the previous telemetry snapshot (Table 17-4) -/
  snap : Snap
deriving DecidableEq, Repr

/-! ## Service die -/

/-- Ways the epoch was fixed (Table 08-3). -/
inductive Epoch where
  | unfixed | code | host | provisional
deriving DecidableEq, Repr

/-- Beat input and counter (chapter 08, Table 02-14). -/
structure Beat where
  now : BitVec 64
  /-- beat events since the cold reset (R258) -/
  events : Nat
  taken : Bool
  lost : Bool
  lossDeclared : Bool
  lostCount : BitVec 16
  stride : Nat
  codeErr : Bool
  resync : Bool
  backward : Bool
  epoch : Epoch
  /-- frame in progress: data pulses taken and their bits (R259, R260) -/
  frame : Option (Nat × BitVec 80)
  /-- a pulse of that frame was not taken as a beat, or a derived beat falls among its beats: it is not valid (R260) -/
  spoiled : Bool
  /-- beat events since the last valid frame ended -/
  sinceValid : Option Nat
  /-- frame held before step 03: EPOCH and beat events since its last pulse (R268) -/
  heldFrame : Option (BitVec 64 × Nat)
  /-- slew: beats left to lose, and the parity of the event (R267) -/
  slew : Nat
  slewOdd : Bool
  /-- record 0x0402 written (R271) -/
  differed : Bool
  /-- edges 0.9–1.1 µs apart seen since the loss (R266) -/
  regular : Nat
  salt : BitVec 35
  /-- step 03 has ended -/
  loaded : Bool
  tFix : BitVec 64
  delta : BitVec 64
  /-- beat events at the end of boot step 12 (R311, R485) -/
  step12 : Option Nat
  firstBeat : Option Nat
  /-- W: the counter at the end of step 10 of the last cold start (R263) -/
  w : BitVec 64
  /-- the pass that this power-on's epoch fix asks for waits for the start to reach it (R277, R278): 0 none, 1 exact, 2 measured -/
  due : Nat
  /-- UNCONFIRMED as the time record showed it when this power-on loaded it (R278) -/
  unconfStart : Bool
  /-- telemetry points passed since the end of boot step 12 (R311) -/
  points : Nat
deriving DecidableEq, Repr

/-- How far a reset reaches (Table 14-1). -/
inductive Reach where
  | cold | warm | slice (k : SliceId) | port (p : Port) | mgmt
deriving DecidableEq, Repr

/-- Reset controller (chapter 14). -/
structure Rst where
  /-- steps still to run in the package start, in order -/
  todo : List Nat
  /-- reach of the start in progress: cold form of a step when the step is in this list -/
  coldSteps : List Nat
  stopped : Bool
  ready : Bool
  lastStep : Nat
  /-- RESET_L held low -/
  pinHeld : Bool
  /-- sources pending behind a store or flush (R464) -/
  pendingSrc : List (Reach × Nat)
  /-- PACKAGE_RESET waiting to assert: true warm (R417) -/
  pkgReset : Option Bool
  /-- start steps skipped (SKIPPED_STEPS) -/
  skipped : BitVec 14
  /-- channels that failed the last step-08 attempt -/
  failedCh : List Nat
  /-- slices of which a die failed the last step-07 self-check (R113) -/
  failedSram : BitVec 8
  /-- step 11 of a cold start waits for a valid frame (R276) -/
  epochWait : Bool
  /-- PROFILE_SEL[1:0] as step 03 last sampled it (R493) -/
  profileSel : BitVec 2
  /-- trim fields wait for the flash until the end of step 04 of a cold start (R471) -/
  trimWait : Bool
  debugOpen : Bool
  dbgEn : Bool
  /-- VDD_AUX retention cell: brown-out recorded (R452) -/
  brown : Bool
  /-- management processor restarting (R359) -/
  mgmtDown : Bool
  /-- the firmware restart: events held per slice (R360) -/
  heldEvents : List (Nat × LogId × EvRec)
  /-- records beyond those 64 that were lost: head, log, timestamp -/
  heldLost : List (Nat × LogId × Nat)
  /-- heads with a held doorbell, in the order in which they were rung (R367) -/
  rung : List Port
  /-- foreground commands that a management reset cut, with their tags, to end with Interrupted (R360) -/
  interrupted : List (Src × BitVec 16)
  servicePll : Bool
  /-- boot-scan instruction selected (R431 test phase) -/
  boundary : Bool
  uartSec : Nat
deriving DecidableEq, Repr

/-- The groups of output and bidirectional pins of Table 14-3. -/
inductive PinGroup where
  | i3c | rails | spi | uartTrace
  | chan (k : SliceId)
  | port (p : Port)
  | status
deriving DecidableEq, Repr

/-- One supervised rail (R424–R433). -/
structure Rail where
  en : Bool
  good : Bool
  failed : Bool
  /-- recovery attempts made, while recovering -/
  recovering : Option Nat
  /-- last measured voltage, mV -/
  mv : Nat
deriving DecidableEq, Repr

/-- Rail configuration in force since the last cold reset (R425, Table 15-4): warning and fault levels in 0.5 %, PMBus fields, HOLD_TRIP
in mV. -/
structure RailCfg where
  warn : Vector Nat 18
  fault : Vector Nat 18
  pmbus : Vector (BitVec 8) 18
  holdTrip : Nat
deriving DecidableEq, Repr

/-- Phases of the power-fail flush (Sequence 13-2): the acceptance window, steps 3 to 6, the wait for the margin, rails off. -/
inductive Flush where
  | idle | window | drain | measure | off
deriving DecidableEq, Repr

/-- Rails and power (chapter 13, 16). -/
structure Power where
  rails : Vector Rail 20
  cfg : RailCfg
  /-- STATUS_WORD last read from each rail's regulator, none for a transaction that failed (R428) -/
  pmbLog : SMap (Option (BitVec 16))
  /-- next start group of Sequence 13-1; 5 done -/
  group : Nat
  /-- the precondition of R429 has held -/
  precond : Bool
  flush : Flush
  thermal : Bool
  aborted : Bool
  /-- input power returned during the shutdown (R450) -/
  returned : Bool
  trigBeat : BitVec 64
  thermShut : Bool
  /-- beat events when THERM_L fell (R518) -/
  thermAt : Nat
  thermL : Bool
  replaceL : Bool
  secAlarmL : Bool
  statusOut : Bool
  svcSamples : List Int
  svcFailed : Bool
  /-- thermal shutdown to report at the next start: sensor (8 service), reading 1/8 °C -/
  thermReport : Option (Nat × Int)
  /-- dirty ceiling allowed by hold-up, MiB (R448) -/
  holdCeil : Nat
  /-- beat events at its last recomputation -/
  ceilAt : Nat
  belowFloor : Bool
  /-- flush time that the projection gave for the dirty state at the trigger, 1/512 ns (R447) -/
  projAtTrig : Nat
  sramLoss : Bool
  /-- credits withheld under R142 until every slice is below -/
  withheld : Bool
deriving DecidableEq, Repr

/-! ## Ledger -/

/-- The two copies of a ledger record, each with its SEQUENCE (R479–R481); none: not valid. -/
structure Copies (α : Type) where
  a : Option (BitVec 32 × α)
  b : Option (BitVec 32 × α)
deriving DecidableEq, Repr

/-- One boot step's record (R418): STATE 0–5, COUNT, ALT, beat. -/
structure BootRec where
  st : Nat
  count : Nat
  alt : Bool
  beat : BitVec 64
deriving DecidableEq, Repr

/-- Boot progress record (R468). -/
structure BootProg where
  count : BitVec 32
  steps : Vector BootRec 14
deriving DecidableEq, Repr

/-- Time record (Table 15-3); pass 0 none, 1 exact, 2 measured. -/
structure TimeRec where
  l : BitVec 64
  unconfirmed : Bool
  pass : Nat
  w : BitVec 64
  tFix : BitVec 64
  delta : BitVec 64
  progress : Nat
deriving DecidableEq, Repr

/-- Firmware record (R361, R363). -/
structure FwRec where
  primary : Fin 2
  svn : Nat
  next : Option (Fin 2)
deriving DecidableEq, Repr

/-- Profile selection record (R384, R493). -/
structure SelRec where
  sticky : Option (Fin 4)
  once : Option (Fin 4)
deriving DecidableEq, Repr

/-- Rail log (Table 12-17). -/
structure RailLog where
  first : BitVec 8
  phase : BitVec 8
  kind : BitVec 8
  beat : BitVec 64
  armed : Bool
  failed : BitVec 20
  warned : BitVec 20
  chatter : BitVec 20
  warnings : Vector (BitVec 8) 20
  faults : Vector (BitVec 8) 20
deriving DecidableEq, Repr

/-- One recorded power-down (R422). -/
structure DownRec where
  margin : Nat
  flush : Nat
  ceiling : Nat
  warm : Bool
  beat : BitVec 64
deriving DecidableEq, Repr

/-- Hold-up record (Table 15-2); q in 1/256. -/
structure HoldRec where
  margin : Nat
  flush : Nat
  q : Nat
  noMeas : Bool
  downs : List DownRec
deriving DecidableEq, Repr

/-- Shutdown record; result 0 no flush, 1 complete, 2 incomplete, 3 thermal (R537). -/
structure ShutRec where
  result : Nat
  unflushed : BitVec 8
  counted : Bool
  dirty : BitVec 32
  value : Byte
  /-- the flush was ended before its step 6: incomplete, whatever result names its cause (R443, R517) -/
  cut : Bool
deriving DecidableEq, Repr

/-- A rekey in the operations record. -/
structure RekeyRec where
  region : Nat
  old : Nat
  new : Nat
  ptr : Nat
deriving DecidableEq, Repr

/-- A key retirement in the operations record (R343): step 1–5, head that issued it. -/
structure RetireRec where
  slot : Nat
  erase : Bool
  step : Nat
deriving DecidableEq, Repr

/-- Operations record. -/
structure OpsRec where
  rekeys : List RekeyRec
  retires : List RetireRec
deriving DecidableEq, Repr

/-- Write group record (R392). -/
structure GroupRec where
  seq : BitVec 64
  port : Port
  tag : BitVec 16
  digest : BitVec 64
  lines : List (Nat × Line)
deriving DecidableEq, Repr

/-- Protection record of a slice (R352, R353). -/
structure ProtRec where
  root : Vector (BitVec 64) 8
  clean : Bool
  unver : List (Nat × Nat)
deriving DecidableEq, Repr

/-- A key record (Table 15-5); state 1 Loaded, 2 Absent, 3 Quarantined. -/
structure KeyRec where
  st : Nat
  dev : Bool
  kcv : BitVec 64
  wrapped : List Byte
deriving DecidableEq, Repr

/-- SRAM retire list: frames (slice, frame), banks (slice, die, bank), each with the beat. -/
structure RetireList where
  frames : List (Nat × Nat × BitVec 64)
  banks : List (Nat × Nat × Nat × BitVec 64)
deriving DecidableEq, Repr

/-- The ledger's records (Table 15-2). -/
structure Ledger where
  boot : Copies BootProg
  time : Copies TimeRec
  fw : Copies FwRec
  sel : Copies SelRec
  /-- pages 8 and 9, non-zero bytes -/
  rail8 : List Host.Cell
  rail9 : List Host.Cell
  rlog : Copies RailLog
  hold : Copies HoldRec
  shut : Copies ShutRec
  media : Copies MediaRec
  ops : Copies OpsRec
  group : Copies (Option GroupRec)
  prot : Copies (Vector ProtRec 8)
  keys : Copies (SMap KeyRec)
  retire : Copies RetireList
  prof : Vector (Copies (List Byte)) 4
deriving DecidableEq, Repr

/-- Shadow array and its control area (R486–R488, R537). -/
structure Shadow where
  led : Ledger
  stores : Nat
  pageA : Nat
  pageB : Nat
  /-- while a store runs, the records as the shadow held them before it (R486) -/
  old : Option Ledger
  sumA : List Byte
  sumB : List Byte
deriving DecidableEq, Repr

/-- Firmware on the management processor (chapter 11). -/
structure Firm where
  /-- image bytes of areas 0 and 1; none: invalid or erased -/
  area0 : Option (List Byte)
  area1 : Option (List Byte)
  running : Fin 2
  /-- open transfer: head, slot, bytes so far -/
  xfer : Option (Port × Nat × List Byte)
  /-- online activation: head, slot -/
  act : Option (Port × Nat)
  /-- image under trial after step 3 of Sequence 11-1 -/
  trial : Bool
  staged : List Byte
  alert : AlertCfg
  /-- event records' next handle, GROUP_SEQ, telemetry SEQUENCE -/
  handle : Nat
  groupSeq : BitVec 64
  telSeq : Nat
  /-- LEDGER_STORE running: head, tag, digest (R410) -/
  store : Option (Src × BitVec 16 × BitVec 64)
  /-- running fences, in the order of their doorbells, each with the request number at its doorbell (R392) -/
  fences : List (GroupRec × Nat)
  /-- keeper position: AREA and OFFSET (R539) -/
  keeper : Nat × Nat
deriving DecidableEq, Repr

/-- A key slot (R336): state 1 Loaded, 2 Absent, 3 Quarantined; quarantine start in beat events. -/
structure Slot where
  st : Nat
  dev : Bool
  key : BitVec 512
  mac : BitVec 256
  kcv : BitVec 64
  since : Nat
deriving DecidableEq, Repr

/-- Package health (chapter 17). -/
structure Health where
  /-- replace causes, bits 0–6 as ZOR_STATUS[30:24] -/
  causes : BitVec 7
  /-- ERRORS of HEALTH_EXT, in its order -/
  errors : Vector (BitVec 64) 8
  temps : Vector (BitVec 64) 5
  /-- failed relay links, bit by index (R411) -/
  links : BitVec 28
  /-- retrain failures in a row by link index -/
  linkFails : SMap Nat
  /-- lines that an injection or a media failure left poisoned, with that source (Table 11-6) -/
  known : List (Nat × PoisonSrc)
  viral : Bool
  /-- health bits as last compared for Memory Module records (R531): Maintenance Needed, Performance Degraded, Hardware
  Replacement Needed, then life, over-, under-temperature and the two corrected-error thresholds crossed -/
  seen : BitVec 8
deriving DecidableEq, Repr

/-- The state of the device. -/
structure State where
  fused : Fused
  heads : Vector Head 8
  slices : Vector Slice 8
  /-- region table and index: one copy for the identical copies of every present slice (R81, R84) -/
  desc : SMap Desc
  index : SMap IndexEntry
  discards : List Discard
  /-- pages of the current chunk of each rekey still to do: region, groups left (R345) -/
  chunks : SMap (List Nat)
  beat : Beat
  rst : Rst
  power : Power
  led : Ledger
  shadow : Shadow
  /-- profile in force: number, ROM, image (R490, R494) -/
  profNo : Fin 4
  profRom : Bool
  prof : List Byte
  firm : Firm
  keys : SMap Slot
  health : Health
  nextId : Nat
  /-- the model's own counter: draws of free values made so far (not the spec's) -/
  free : Nat
  /-- what the device sent, newest first -/
  out : List Out
  /-- the commands waiting, front first (the model's own) -/
  pending : List Instr
deriving DecidableEq, Repr

/-! ## Reset values -/

/-- A decoder after reset: not committed (R76). -/
def Decoder.reset : Decoder := ⟨false, false, 0, 0, 0, 1, 256⟩

/-- An IDE stream after reset: no keys. -/
def IdeStream.reset : IdeStream := ⟨.none, 0⟩

/-- An MSI-X entry after reset: masked (PRESUMED, PCIe; log entry 4). -/
def Msix.reset : Msix := ⟨0, 0, true⟩

/-- An empty log. -/
def Log.reset : Log := ⟨[], false, 0, 0, 0⟩

/-- Telemetry queue after a flushing reset (Table 02-17, R530). -/
def Queue.reset : Queue := ⟨[], 0, false, false, 0, false, 256, false, 1⟩

/-- A head after a cold reset. -/
def Head.reset : Head where
  link := none
  enabled := false
  held := 0
  dec := Vector.replicate 8 Decoder.reset
  ideMem := IdeStream.reset
  ideIo := IdeStream.reset
  msix := Vector.replicate 8 Msix.reset
  pba := 0
  policy := Vector.replicate 4 ⟨0, 0⟩
  logs := Vector.replicate 4 Log.reset
  lsa := []
  alarm := ⟨false, 0, 0, 0, 0⟩
  cause := ⟨1, 1, 0⟩
  viralEn := false
  viral := false
  tq := Queue.reset
  latch := []
  bar0 := 0
  bar2 := 0
  l1Enable := false
  muted := false
  mutedBg := false
  mboxReady := false
  dbInt := false
  bgInt := false
  dup := []
  bg := none
  bgLast := none
  doorbells := []
  credD := 0
  credR := 0
  window := 0
  inflight := []
  limits := []
  shadow := []
  grantedManage := false
  userRead := false
  scanResults := []

/-- Default arbiter weights FR, FW, FD, SC, CB, MX (Table 06-2). -/
def defaultWeights : Vector (BitVec 16) 6 := #v[320, 24, 24, 12, 8, 12]

/-- Default Pacer parameters (Table 09-4). -/
def PaceParm.default : PaceParm := ⟨20, 60, 16, 26, 64, 65536⟩

/-- Arbiter statistics cleared (R213). -/
def RqStat.reset : RqStat := ⟨0, 0, 0, 0, 0⟩

/-- An arbiter after reset (R197). -/
def Arb.reset : Arb where
  weights := defaultWeights
  nextWeights := none
  armed := none
  holdLimit := 64
  credits := Vector.replicate 6 0
  queue := []
  chosen := none
  owner := none
  tail := []
  lastGrant := none
  stats := Vector.replicate 6 RqStat.reset
  lockAbandoned := 0
  displaced := 0
  lateStarts := 0
  pauses := 0
  overBound := 0
  lastCutRec := none
  readied := []

/-- A die before it is found: mode registers at their reset values (Table 05-13), no reading yet (band T4, R185). -/
def Die.reset : Die where
  present := false
  failed := false
  ident := none
  mreg := #v[1, 0, 20, 100, 0xD8, 0, 8, 0]
  temp := 0
  high := 0
  valid := false
  tempFails := 0
  tempTries := 0
  tsTries := 0
  band := 4
  sets := []
  tsPage := none
  lostInRow := 0
  stWait := false
  stTries := 0
  banks := []
  scrubTodo := []
  scrubDue := 0
  quota := 0
  scrubLate := 0
  overdue := false
  scrub := none
  trainTemp := 0
  calAt := 0
  calOrder := []
  calPtr := 0

/-- Pacer state of a channel, cleared (Table 09-3). -/
def PaceCh.reset : PaceCh := ⟨0, 0, 0, 0, Vector.replicate 6 0, 0, 0, 0, 0, 0, [], (0, 0, 0)⟩

/-- A channel before training. -/
def Chan.reset : Chan where
  up := false
  window := 0
  dies := Vector.replicate 8 Die.reset
  arb := Arb.reset
  pace := PaceCh.reset
  retraining := false
  retrainTries := 0
  errBeats := []
  lostBeats := []
  slots := []
  sent := []
  resent := []
  alert := false
  trackAt := 0
  acct := Vector.replicate 2 0
  aborts := []
  delays := ⟨[], 0, [], [], [], [], []⟩
  gate := Vector.replicate 2 0
  rx := Vector.replicate 2 0
  tracking := false
  rejects := []
  now := 0

/-- A front store with every VALID bit clear and an empty directory (R112, R120). -/
def Front.reset : Front := ⟨[], [], [], [], [], [], none, [], [], 0, [], [], false, false⟩

/-- Media tables, empty: every block UNMAPPED, no journal page. -/
def Media.reset : Media where
  bmap := []
  overlay := []
  blocks := []
  seq := 0
  mapSeq := 0
  buffer := []
  ring := []
  ringB := []
  copying := 0
  ckA := none
  ckB := none
  journals := []
  drains := []
  folds := []
  gcs := []
  urgent := []
  refresh := []
  collect := []
  reencs := []
  tokens := 0
  tokenFrac := 0
  wearGiven := []
  s0 := []
  health := []
  deadDies := []
  lostOver := []
  lateLines := []
  waiting := []
  unreadable := []
  copyDue := false
  psnMarks := []
  flying := 0
  copyBad := false
  ckpt := none
  passCk := false
  config := none

/-- No sums since the last snapshot. -/
def Snap.reset : Snap := ⟨0, Vector.replicate 4 0, 0, 0, 0, 0⟩

/-- A counter that counts nothing. -/
def Counter.reset : Counter := ⟨0, 0, 0, false⟩

/-- A counter tree whose every counter is 0. -/
def Tree.reset : Tree := ⟨Vector.replicate 8 0, [], [], false, [], [], [], [], none, []⟩

/-- A slice after a cold reset, before its boot steps. -/
def Slice.reset : Slice where
  st := .resetting
  ok := false
  clkAlive := false
  backupClk := false
  quiesce := 0
  quiescedAt := 0
  todo := []
  cache := []
  cacheTree := 0
  cacheOn := true
  fill := none
  refills := []
  waiting := []
  heldReqs := []
  front := Front.reset
  media := Media.reset
  chans := Vector.replicate 16 Chan.reset
  pacer := ⟨PaceParm.default, none, none, 0, false, true, 0, 0⟩
  tree := Tree.reset
  reads := []
  holding := []
  lens := []
  lensImages := []
  counters := Vector.replicate 16 Counter.reset
  ctrPending := none
  pct := 100
  samples := []
  sensorFailed := false
  sramBand := 0
  sramSet := 0
  rho := [(714, 1024)]
  rhoAt := 0
  flushed := false
  passTodo := []
  snap := Snap.reset

/-- The beat counter and input after a cold reset (Tables 02-13, 02-14). -/
def Beat.reset : Beat where
  now := 0
  events := 0
  taken := false
  lost := false
  lossDeclared := false
  lostCount := 0
  stride := 0
  codeErr := false
  resync := false
  backward := false
  epoch := .unfixed
  frame := none
  spoiled := false
  sinceValid := none
  heldFrame := none
  slew := 0
  slewOdd := false
  differed := false
  regular := 0
  salt := 0
  loaded := false
  tFix := 0
  delta := 0
  step12 := none
  firstBeat := none
  w := 0
  due := 0
  unconfStart := false
  points := 0

/-- The fourteen boot steps, in order (Table 14-4). -/
def allSteps : List Nat := [0, 1, 2, 3, 4, 5, 6, 7, 8, 9, 10, 11, 12, 13]

/-- The reset controller after a power-on reset: every step still to run. -/
def Rst.reset : Rst where
  todo := allSteps
  coldSteps := allSteps
  stopped := false
  ready := false
  lastStep := 0
  pinHeld := false
  pendingSrc := []
  pkgReset := none
  skipped := 0
  failedCh := []
  failedSram := 0
  epochWait := false
  profileSel := 0
  debugOpen := false
  dbgEn := false
  brown := false
  mgmtDown := false
  heldEvents := []
  heldLost := []
  rung := []
  interrupted := []
  servicePll := false
  boundary := false
  trimWait := false
  uartSec := 0

/-- A rail that is off; VDD_AUX (16) is the board's. -/
def Rail.reset : Rail := ⟨false, false, false, none, 0⟩

/-- The default levels (R425). -/
def RailCfg.default : RailCfg := ⟨Vector.replicate 18 6, Vector.replicate 18 12, Vector.replicate 18 0, 800⟩

/-- Rails and power after a power-on reset. -/
def Power.reset : Power where
  rails := (Vector.replicate 20 Rail.reset).set 16 { Rail.reset with en := true, good := true }
  cfg := RailCfg.default
  pmbLog := []
  group := 1
  precond := false
  flush := .idle
  thermal := false
  aborted := false
  returned := false
  trigBeat := 0
  thermShut := false
  thermAt := 0
  thermL := true
  replaceL := true
  secAlarmL := true
  statusOut := false
  svcSamples := []
  svcFailed := false
  thermReport := none
  holdCeil := 512
  ceilAt := 0
  belowFloor := false
  projAtTrig := 0
  sramLoss := false
  withheld := false

/-- A record with neither copy valid. -/
def Copies.empty {α : Type} : Copies α := ⟨none, none⟩

/-- A ledger in which no record is valid: the shadow as the model takes it before the first start (log entry 5). -/
def Ledger.empty : Ledger where
  boot := .empty
  time := .empty
  fw := .empty
  sel := .empty
  rail8 := []
  rail9 := []
  rlog := .empty
  hold := .empty
  shut := .empty
  media := .empty
  ops := .empty
  group := .empty
  prot := .empty
  keys := .empty
  retire := .empty
  prof := Vector.replicate 4 .empty

/-- Firmware state after a cold reset. -/
def Firm.reset : Firm where
  area0 := some Config.factoryImage
  area1 := none
  running := 0
  xfer := none
  act := none
  trial := false
  staged := []
  alert := ⟨0, 0, 0, 0, 0⟩
  handle := 1
  groupSeq := 0
  telSeq := 0
  store := none
  fences := []
  keeper := (0, 0)

/-- The machine right after a power-on cold reset of an 8S, before boot step 00 runs (log entries 4 and 5). -/
def State.reset : State where
  fused := ⟨3, false, 0, 0, 0, Vector.replicate 4 0, 0, 768⟩
  heads := Vector.replicate 8 Head.reset
  slices := Vector.replicate 8 Slice.reset
  desc := []
  index := []
  discards := []
  chunks := []
  beat := Beat.reset
  rst := Rst.reset
  power := Power.reset
  led := Ledger.empty
  shadow := ⟨Ledger.empty, 0, 0, 0, none, [], []⟩
  profNo := 0
  profRom := false
  prof := []
  firm := Firm.reset
  keys := []
  health := ⟨0, Vector.replicate 8 0, Vector.replicate 5 0, 0, [], [], false, 0⟩
  nextId := 0
  free := 0
  out := []
  pending := []

end Sys2Proof.Machine
end

