-- ==== Sys2Proof/Machine/Ops.lean ====
section
/-! DEFINITION. The named operations that every family of commands shares: sparse tables, state updates, emissions,
the beat's view of time, event records, interrupts, counters and alarms. -/

namespace Sys2Proof.Machine

/-! ## Sparse tables -/

/-- The value listed at a key. -/
def SMap.get? {α : Type} (m : SMap α) (key : Nat) : Option α :=
  match m with
  | [] => none
  | (a, v) :: rest => if a = key then some v else SMap.get? rest key

/-- List a value at a key, keeping keys rising. -/
def SMap.put {α : Type} (m : SMap α) (key : Nat) (v : α) : SMap α :=
  match m with
  | [] => [(key, v)]
  | (a, w) :: rest =>
    if key < a then (key, v) :: (a, w) :: rest
    else if a = key then (key, v) :: rest
    else (a, w) :: SMap.put rest key v

/-- Remove a key. -/
def SMap.del {α : Type} (m : SMap α) (key : Nat) : SMap α := m.filter (fun c => c.1 != key)

/-- The value at a key, or a default. -/
def SMap.getD {α : Type} (m : SMap α) (key : Nat) (d : α) : α := (SMap.get? m key).getD d

/-- Change the value at a key when there is one. -/
def SMap.modify {α : Type} (m : SMap α) (key : Nat) (f : α → α) : SMap α :=
  m.map (fun c => if c.1 = key then (c.1, f c.2) else c)

/-- Keys strictly rising: the canonical form of a sparse table. -/
def SMap.sorted {α : Type} : SMap α → Bool
  | [] => true
  | [_] => true
  | (a, _) :: (b, w) :: rest => decide (a < b) && SMap.sorted ((b, w) :: rest)

/-! ## Sparse byte memories -/

/-- The byte at an address; an address not listed reads zero. -/
def Mem.read (m : List Host.Cell) (a : Nat) : Byte := SMap.getD m a 0

/-- Write one byte: writing zero removes the entry. -/
def Mem.write (m : List Host.Cell) (a : Nat) (v : Byte) : List Host.Cell :=
  if v = 0 then SMap.del m a else SMap.put m a v

/-- Write bytes from an address upward. -/
def Mem.writeAll (m : List Host.Cell) (a : Nat) : List Byte → List Host.Cell
  | [] => m
  | b :: bs => Mem.writeAll (Mem.write m a b) (a + 1) bs

/-- Read n bytes from an address upward. -/
def Mem.readAll (m : List Host.Cell) (a n : Nat) : List Byte := (List.range n).map (fun i => Mem.read m (a + i))

/-- The canonical form: addresses strictly rising, no zero listed. -/
def Mem.wf (m : List Host.Cell) : Bool := SMap.sorted m && m.all (fun c => c.2 != 0)

/-! ## Plain helpers -/

/-- Number of set bits. -/
def popcount {w : Nat} (v : BitVec w) : Nat := (List.range w).foldl (fun n i => if v.getLsbD i then n + 1 else n) 0

/-- Saturating increment of a bit vector counter. -/
def satInc {w : Nat} (v : BitVec w) : BitVec w := if v = BitVec.allOnes w then v else v + 1

/-- Set or clear one bit. -/
def setBit {w : Nat} (v : BitVec w) (i : Nat) (b : Bool) : BitVec w :=
  if b then v ||| BitVec.ofNat w (2 ^ i) else v &&& ~~~(BitVec.ofNat w (2 ^ i))

/-- Little-endian bytes of a number. -/
def leBytes (n v : Nat) : List Byte := (List.range n).map (fun i => BitVec.ofNat 8 (v / 256 ^ i))

/-- Value of little-endian bytes. -/
def leVal (bs : List Byte) : Nat := bs.foldr (fun b n => b.toNat + 256 * n) 0

/-- Take n bytes from offset i, missing bytes read zero. -/
def bytesAt (bs : List Byte) (i n : Nat) : List Byte := (List.range n).map (fun t => bs.getD (i + t) 0)

/-- Little-endian field of n bytes at offset i. -/
def field (bs : List Byte) (i n : Nat) : Nat := leVal (bytesAt bs i n)

/-- The 64 bytes of a line. -/
def lineBytes (d : Line) : List Byte := leBytes 64 d.toNat

/-- Ceiling division. -/
def ceilDiv (a b : Nat) : Nat := (a + b - 1) / b

/-! ## Vectors -/

/-- Apply a function to every element of a vector. -/
def mapV {α β : Type} {n : Nat} (v : Vector α n) (f : α → β) : Vector β n := ⟨⟨v.toArray.toList.map f⟩, by simp⟩

/-- Combine two vectors element by element. -/
def zipV {α β γ : Type} {n : Nat} (f : α → β → γ) (v : Vector α n) (w : Vector β n) : Vector γ n :=
  ⟨⟨List.zipWith f v.toArray.toList w.toArray.toList⟩, by simp⟩

/-! ## Parts of the state -/

/-- One head. -/
def State.head (s : State) (p : Port) : Head := s.heads[p]

/-- Change one head. -/
def State.updHead (s : State) (p : Port) (f : Head → Head) : State := { s with heads := s.heads.set p (f s.heads[p]) }

/-- Change every head. -/
def State.mapHeads (s : State) (f : Head → Head) : State := { s with heads := mapV s.heads f }

/-- One slice. -/
def State.slice (s : State) (k : SliceId) : Slice := s.slices[k]

/-- Change one slice. -/
def State.updSlice (s : State) (k : SliceId) (f : Slice → Slice) : State :=
  { s with slices := s.slices.set k (f s.slices[k]) }

/-- Change every slice. -/
def State.mapSlices (s : State) (f : Slice → Slice) : State := { s with slices := mapV s.slices f }

/-- One channel. -/
def State.chan (s : State) (k : SliceId) (j : ChanId) : Chan := (s.slices[k]).chans[j]

/-- Change one channel of a slice. -/
def Slice.updChan (x : Slice) (j : ChanId) (f : Chan → Chan) : Slice := { x with chans := x.chans.set j (f x.chans[j]) }

/-- Change one channel. -/
def State.updChan (s : State) (k : SliceId) (j : ChanId) (f : Chan → Chan) : State := s.updSlice k (·.updChan j f)

/-- Change one die of a channel. -/
def Chan.updDie (c : Chan) (d : DieId) (f : Die → Die) : Chan := { c with dies := c.dies.set d (f c.dies[d]) }

/-- Change the front store of a slice. -/
def State.updFront (s : State) (k : SliceId) (f : Front → Front) : State :=
  s.updSlice k (fun x => { x with front := f x.front })

/-- Change the media tables of a slice. -/
def State.updMedia (s : State) (k : SliceId) (f : Media → Media) : State :=
  s.updSlice k (fun x => { x with media := f x.media })

/-- Emit one thing. -/
def State.emit (s : State) (o : Out) : State := { s with out := o :: s.out }

/-- Take the next draw number for a free value. -/
def State.draw (s : State) : Nat × State := (s.free, { s with free := s.free + 1 })

/-! ## Build -/

/-- Number of slices of the build (Table 00-1). -/
def State.nSlices (s : State) : Nat := 2 ^ s.fused.s.val

/-- Slice, and host port, k is in the build (R3). -/
def State.present (s : State) (k : Fin 8) : Bool := decide (k.val < s.nSlices)

/-- The slices of the build, ascending. -/
def State.sliceIds (s : State) : List SliceId := (List.finRange 8).filter s.present

/-- A working slice: present with SLICE_OK set (R48, R142). -/
def State.working (s : State) (k : SliceId) : Bool := s.present k && (s.slice k).ok

/-! ## Ledger copies (R479–R481) -/

/-- Sequence a is later than b (R479). -/
def seqLater {w : Nat} (a b : BitVec w) : Bool := let d := (a - b).toNat; decide (0 < d) && decide (2 * d < 2 ^ w)

/-- Copy A is the copy in force (R481), when either is. -/
def Copies.useA {α : Type} (c : Copies α) : Bool :=
  match c.a, c.b with
  | some (x, _), some (y, _) => !(seqLater y x)
  | some _, none => true
  | none, _ => false

/-- The contents in force. -/
def Copies.cur {α : Type} (c : Copies α) : Option α :=
  if c.useA then c.a.map (·.2) else c.b.map (·.2)

/-- The sequence in force. -/
def Copies.curSeq {α : Type} (c : Copies α) : Option (BitVec 32) :=
  if c.useA then c.a.map (·.1) else c.b.map (·.1)

/-- Both copies valid with one SEQUENCE and different contents (R481, LEDGER_TIE). -/
def Copies.tied {α : Type} [DecidableEq α] (c : Copies α) : Bool :=
  match c.a, c.b with
  | some (x, v), some (y, w) => x == y && v != w
  | _, _ => false

/-- Update: write the copy that is not in force with the next SEQUENCE (R480). -/
def Copies.put {α : Type} (c : Copies α) (v : α) : Copies α :=
  match c.curSeq with
  | none => { c with a := some (1, v) }
  | some n => if c.useA then { c with b := some (n + 1, v) } else { c with a := some (n + 1, v) }

/-- Contents in force or a default. -/
def Copies.getD {α : Type} (c : Copies α) (d : α) : α := c.cur.getD d

/-- Media configuration in force; none recorded: no count, no absent channel, H = L. -/
def State.mediaRec (s : State) : MediaRec := s.led.media.getD ⟨0, [], Vector.replicate 8 s.fused.l, []⟩

/-- Dies on every channel as the media configuration in force records them (R40); 0: not recorded yet. -/
def State.dies (s : State) : Nat := s.mediaRec.dies

/-- Change the media configuration record, and its copy in the reserved area of every slice that is not lost. -/
def State.putMediaRec (s : State) (f : MediaRec → MediaRec) : State :=
  let r := f s.mediaRec
  { s with
    led := { s.led with media := s.led.media.put r }
    slices := mapV s.slices (fun x => if x.st == .lost then x else { x with media := { x.media with config := some r } }) }

/-- Operations record in force. -/
def State.ops (s : State) : OpsRec := s.led.ops.getD ⟨[], []⟩

/-- Change the operations record. -/
def State.putOps (s : State) (f : OpsRec → OpsRec) : State := { s with led := { s.led with ops := s.led.ops.put (f s.ops) } }

/-- Shutdown record in force; neither copy valid: taken as incomplete and not counted (Table 15-2). -/
def State.shut (s : State) : ShutRec := s.led.shut.getD ⟨2, 0xFF, false, 0, 0, true⟩

/-- Hold-up record in force; none: no measurement, 5,000 µs, Q 1 (Table 15-2). -/
def State.holdRec (s : State) : HoldRec := s.led.hold.getD ⟨5000, 0, 256, true, []⟩

/-- Time record in force; none: counter from 0, UNCONFIRMED (Table 15-2). -/
def State.timeRec (s : State) : TimeRec := s.led.time.getD ⟨0, true, 0, 0, 0, 0, 0⟩

/-- Change the time record. -/
def State.putTime (s : State) (f : TimeRec → TimeRec) : State :=
  { s with led := { s.led with time := s.led.time.put (f s.timeRec) } }

/-- Firmware record in force (Table 15-2). -/
def State.fwRec (s : State) : FwRec := s.led.fw.getD ⟨0, 0, none⟩

/-- Profile selection in force. -/
def State.selRec (s : State) : SelRec := s.led.sel.getD ⟨none, none⟩

/-- An empty, armed rail log (Table 15-2). -/
def RailLog.empty : RailLog := ⟨0xFF, 0, 0, 0, true, 0, 0, 0, Vector.replicate 20 0, Vector.replicate 20 0⟩

/-- Rail log in force. -/
def State.railLog (s : State) : RailLog := s.led.rlog.getD RailLog.empty

/-- Change the rail log: the record is kept in the ledger SRAM (R438). -/
def State.putRailLog (s : State) (f : RailLog → RailLog) : State :=
  { s with led := { s.led with rlog := s.led.rlog.put (f s.railLog) } }

/-- Boot progress in force (Table 15-2). -/
def State.bootProg (s : State) : BootProg := s.led.boot.getD ⟨0, Vector.replicate 14 ⟨0, 0, false, 0⟩⟩

/-- SRAM retire list in force. -/
def State.retireList (s : State) : RetireList := s.led.retire.getD ⟨[], []⟩

/-- Protection records in force; none: every root lost (Table 15-2). -/
def State.protRecs (s : State) : Vector ProtRec 8 :=
  s.led.prot.getD (Vector.replicate 8 ⟨Vector.replicate 8 0, false, []⟩)

/-- Key records in force. -/
def State.keyRecs (s : State) : SMap KeyRec := s.led.keys.getD []

/-- The write group record left in the ledger (R392). -/
def State.groupRec (s : State) : Option GroupRec := s.led.group.getD none

/-! ## Profile in force (Table 15-6) -/

/-- A byte of the profile in force. -/
def State.profByte (s : State) (i : Nat) : Byte := s.prof.getD i 0

/-- A 16-bit field of the profile in force. -/
def State.prof16 (s : State) (i : Nat) : Nat := field s.prof i 2

/-- Roles of a port under the profile in force: bits DATA, MANAGE, KEYS, FIRMWARE, DEBUG; none for an absent port
(R490); MANAGE granted at start counts (R495). -/
def State.roles (s : State) (p : Port) : BitVec 5 :=
  if s.present p then
    let r := (s.profByte (48 + 2 * p.val)).setWidth 5
    if (s.head p).grantedManage then r ||| 2#5 else r
  else 0

/-- The port holds DATA. -/
def State.hasData (s : State) (p : Port) : Bool := (s.roles p).getLsbD 0
/-- The port holds MANAGE. -/
def State.hasManage (s : State) (p : Port) : Bool := (s.roles p).getLsbD 1

/-- CLEAR_PERMITTED of the profile in force. -/
def State.clearPermitted (s : State) : Bool := (s.profByte 32).getLsbD 0
/-- EPOCH_BACKWARD of the profile in force. -/
def State.epochBackward (s : State) : Bool := (s.profByte 32).getLsbD 1
/-- GOVERNOR of the profile in force. -/
def State.governorOn (s : State) : Bool := (s.profByte 32).getLsbD 2
/-- DIRTY_CEILING of the profile in force, MiB. -/
def State.profCeiling (s : State) : Nat := s.prof16 36
/-- IDE_REQUIRED for a port. -/
def State.ideRequired (s : State) (p : Port) : Bool := (s.profByte (49 + 2 * p.val)).getLsbD 7
/-- THROTTLE_START of the profile in force, °C; 95 before step 03 has selected one (R513). -/
def State.throttleStart (s : State) : Nat := if s.beat.loaded then (s.profByte 34).toNat else 95

/-! ## Time -/

/-- The epoch is known: fixed by the code or a host (Table 02-14). -/
def Beat.known (b : Beat) : Bool := b.epoch == .code || b.epoch == .host

/-- Timestamp of a record, ns (R57): the counter, or the time since power-on while the epoch is unknown. -/
def State.timestamp (s : State) : Nat := (if s.beat.known then s.beat.now.toNat else s.beat.events) * 1000

/-! ## Interrupts and pins -/

/-- Send an MSI-X vector, or hold it pending while masked (R44). -/
def State.msix (s : State) (p : Port) (v : Fin 8) : State :=
  if ((s.head p).msix[v]).masked then s.updHead p (fun h => { h with pba := setBit h.pba v.val true })
  else s.emit (.msix p v)

/-- Send a vector on every present head. -/
def State.msixAll (s : State) (v : Fin 8) : State := s.sliceIds.foldl (fun s p => s.msix p v) s

/-! ## Counters (R520–R522) -/

/-- Add to counter n and to the counters chained above it. -/
def addCounter (cs : Vector Counter 16) (n add : Nat) (fuel : Nat) : Vector Counter 16 :=
  match fuel with
  | 0 => cs
  | fuel + 1 =>
    if hn : n < 16 then
      let c := cs[n]
      let t := c.value.toNat + add
      let cs := cs.set n { c with value := BitVec.ofNat 48 t, ovf := c.ovf || decide (2 ^ 48 ≤ t) }
      if hm : n + 1 < 16 then
        if 2 ^ 48 ≤ t ∧ (cs[n + 1]).event = 1 then addCounter cs (n + 1) (t / 2 ^ 48) fuel else cs
      else cs
    else cs

/-- Count an event of a slice: every counter set to the event adds the amount; slot events look at CHANNEL. -/
def countIn (cs : Vector Counter 16) (ev : BitVec 12) (ch : Option (BitVec 4)) (add : Nat) : Vector Counter 16 :=
  (List.range 16).foldl
    (fun cs n =>
      match cs[n]? with
      | some c =>
        if c.event = ev ∧ ev ≠ 0 ∧ ev ≠ 1 ∧ (ch = none ∨ ch = some c.chan) then addCounter cs n add 16 else cs
      | none => cs) cs

/-- Count an event for a slice (R524). -/
def State.count (s : State) (k : SliceId) (ev : BitVec 12) (add : Nat := 1) : State :=
  s.updSlice k (fun x => { x with counters := countIn x.counters ev none add })

/-- Count a slot event of one channel (0x010–0x014). -/
def State.countSlot (s : State) (k : SliceId) (j : ChanId) (ev : BitVec 12) (add : Nat) : State :=
  s.updSlice k (fun x => { x with counters := countIn x.counters ev (some (BitVec.ofNat 4 j.val)) add })

/-- Add to one of the ERRORS counts of HEALTH_EXT (Table 12-16). -/
def State.addError (s : State) (i : Fin 8) (n : Nat := 1) : State :=
  { s with health := { s.health with errors := s.health.errors.set i (s.health.errors[i] + BitVec.ofNat 64 n) } }

/-! ## Rails -/

/-- The rail that feeds a slice's channels holds: VDD_MIO_N for slices 0 to 3, VDD_MIO_S for the others (Table 13-1). -/
def State.channelRail (s : State) (k : SliceId) : Bool := (s.power.rails[if k.val < 4 then (13 : Fin 20) else 14]).good

/-- The core rail of a slice holds (Table 13-1). -/
def State.sliceRail (s : State) (k : SliceId) : Bool := (s.power.rails[(⟨k.val, by omega⟩ : Fin 20)]).good

/-- Both rails of the ports' SerDes hold. -/
def State.serdesRails (s : State) : Bool := (s.power.rails[(11 : Fin 20)]).good && (s.power.rails[(12 : Fin 20)]).good

/-! ## Event records (R54–R57) -/

/-- Index of a log. -/
def logIx : LogId → Fin 4
  | .informational => 0
  | .warning => 1
  | .failure => 2
  | .fatal => 3

/-- Count a record that a log has lost (R56). -/
def Log.lose (l : Log) (ts : Nat) : Log :=
  { l with overflow := true, lost := l.lost + 1, firstLost := if l.lost = 0 then ts else l.firstLost, lastLost := ts }

/-- Enter a record in a log: a full log keeps its oldest records and counts the loss (R56). -/
def Log.enter (l : Log) (r : EvRec) : Log := if l.recs.length < 256 then { l with recs := l.recs ++ [r] } else l.lose r.ts

/-- Enter a record in one head's log and send the log's interrupt when its policy is MSI-X. -/
def State.enterLog (s : State) (p : Port) (log : LogId) (r : EvRec) : State :=
  let r := { r with handle := s.firm.handle }
  let s := { s with firm := { s.firm with handle := s.firm.handle + 1 } }
  let s := s.updHead p (fun h => { h with logs := h.logs.set (logIx log) ((h.logs[logIx log]).enter r) })
  let pol : IntPolicy := (s.head p).policy[logIx log]
  if pol.mode = 1 then s.msix p ⟨pol.vector.toNat % 8, Nat.mod_lt _ (by decide)⟩ else s

/-- A record: what the event tables fill in, stamped with the beat (R57). -/
def State.mkRec (s : State) (kind : EvKind) (code : Nat) (slice unit sub addr v1 v2 : Nat) : EvRec where
  handle := 0
  kind := kind
  code := BitVec.ofNat 16 code
  slice := BitVec.ofNat 8 slice
  unit := BitVec.ofNat 8 unit
  sub := BitVec.ofNat 8 sub
  epochUnknown := !s.beat.known
  suppressed := 0
  addr := BitVec.ofNat 64 addr
  beat := s.beat.now
  ts := s.timestamp
  value1 := BitVec.ofNat 64 v1
  value2 := BitVec.ofNat 64 v2

/-- Raise a record for a list of heads: held for the firmware while it restarts, 64 per slice (R360). -/
def State.raise (s : State) (heads : List Port) (log : LogId) (r : EvRec) : State :=
  if s.rst.mgmtDown then
    heads.foldl (fun s p =>
      let n := (s.rst.heldEvents.filter (fun e => e.2.2.slice = r.slice)).length
      if n < 64 then { s with rst := { s.rst with heldEvents := s.rst.heldEvents ++ [(p.val, log, r)] } }
      else { s with rst := { s.rst with heldLost := s.rst.heldLost ++ [(p.val, log, r.ts)] } }) s
  else heads.foldl (fun s p => s.enterLog p log r) s

/-- A vendor record to every head (R55). -/
def State.vendorAll (s : State) (log : LogId) (code slice unit sub addr v1 v2 : Nat) : State :=
  s.raise s.sliceIds log (s.mkRec .vendor code slice unit sub addr v1 v2)

/-- A vendor record to one head (R55). -/
def State.vendorOne (s : State) (p : Port) (log : LogId) (code slice unit sub addr v1 v2 : Nat) : State :=
  s.raise [p] log (s.mkRec .vendor code slice unit sub addr v1 v2)

/-- A vendor record held to one per key in any 65,536 beats for a head (R47, R89, R203, R427, R502). -/
def State.vendorLimited (s : State) (p : Port) (log : LogId) (code sub slice unit : Nat) (addr v1 v2 : Nat) : State :=
  let old := (s.head p).limits
  match old.find? (fun l => l.1 = code ∧ l.2.1 = sub) with
  | some (_, _, at', sup) =>
    if s.beat.events < at' + 65536 then
      s.updHead p (fun h => { h with limits := old.map (fun l => if l.1 = code ∧ l.2.1 = sub then (code, sub, at', min (sup + 1) 65535) else l) })
    else
      let s := s.updHead p (fun h => { h with limits := old.map (fun l => if l.1 = code ∧ l.2.1 = sub then (code, sub, s.beat.events, 0) else l) })
      s.raise [p] log { s.mkRec .vendor code slice unit 0xFF addr v1 v2 with suppressed := BitVec.ofNat 16 sup }
  | none =>
    let s := s.updHead p (fun h => { h with limits := (code, sub, s.beat.events, 0) :: old })
    s.raise [p] log (s.mkRec .vendor code slice unit 0xFF addr v1 v2)

/-- Heads with a committed decoder that maps a DPA (R55). -/
def decoderMaps (d : Decoder) (pre dpa : Nat) : Bool :=
  d.committed && decide (pre + d.skip ≤ dpa) && decide (dpa < pre + d.skip + d.size / d.ways)

/-- DPA base of each decoder: what the decoders before it consume (log entry 9). -/
def decBases (ds : List Decoder) (acc : Nat) : List (Decoder × Nat) :=
  match ds with
  | [] => []
  | d :: rest => (d, acc) :: decBases rest (if d.committed then acc + d.skip + d.size / d.ways else acc)

/-- A head maps a DPA through some committed decoder. -/
def Head.maps (h : Head) (dpa : Nat) : Bool := (decBases h.dec.toList 0).any (fun c => decoderMaps c.1 c.2 dpa)

/-- Heads mapping a DPA. -/
def State.headsMapping (s : State) (dpa : Nat) : List Port := s.sliceIds.filter (fun p => (s.head p).maps dpa)

/-- General Media record (R532): to the issuing head, or to every head mapping the DPA; Failure log. `unit` is the MC
number or slice, `rank` the die, `dev` the bank or frame; transaction type in `ty` (1 host write). -/
def State.mediaRecord (s : State) (issuer : Option Port) (dpa slice unit rank dev ty : Nat) : State :=
  let heads := match issuer with | some p => [p] | none => s.headsMapping dpa
  s.raise heads .failure { s.mkRec .media 0 slice unit rank dpa dev ty with kind := .media }

/-- Memory Module record to every head (R531), in the Informational log (DESIGN CHOICE: R54 and R531 name no log; log entry 45). -/
def State.moduleRecord (s : State) (what : Nat) : State :=
  s.raise s.sliceIds .informational (s.mkRec .module what 0xFF 0xFF 0xFF 0 0 0)

/-! ## Alarms and causes -/

/-- Security alarm (R75): vendor record, ZOR_ALARM[0] on every head, SEC_ALARM_L low, vector 6. -/
def State.alarm (s : State) (cause : Nat) (slice addr v2 : Nat) : State :=
  let s := s.vendorAll .failure 0x0501 slice 0xFF 0xFF addr cause v2
  let s := s.mapHeads (fun h => { h with alarm :=
    if h.alarm.sec then { h.alarm with count := satInc h.alarm.count }
    else ⟨true, BitVec.ofNat 4 cause, BitVec.ofNat 3 slice, satInc h.alarm.count, s.beat.now.setWidth 32⟩ })
  let s := { s with power := { s.power with secAlarmL := false } }
  let s := if s.power.statusOut then s.emit (.pin .secAlarmL false) else s
  let s := s.addError 6
  s.msixAll 6

/-- Replace-Requested holds (R535). -/
def State.replace (s : State) : Bool := s.health.causes != 0

/-- Set one replace cause (R535): a cause newly set writes record 0x0805 and drives REPLACE_L. -/
def State.setReplace (s : State) (i : Fin 7) : State :=
  if s.health.causes.getLsbD i.val then s
  else
    let s := { s with health := { s.health with causes := setBit s.health.causes i.val true },
                      power := { s.power with replaceL := false } }
    let s := if s.power.statusOut then s.emit (.pin .replaceL false) else s
    s.vendorAll .warning 0x0805 0xFF 0xFF 0xFF 0 s.health.causes.toNat i.val

/-- Clear one replace cause; REPLACE_L is released when none is left. -/
def State.clearReplace (s : State) (i : Fin 7) : State :=
  if s.health.causes.getLsbD i.val then
    let s := { s with health := { s.health with causes := setBit s.health.causes i.val false } }
    if s.replace then s
    else
      let s := { s with power := { s.power with replaceL := true } }
      if s.power.statusOut then s.emit (.pin .replaceL true) else s
  else s

/-- Enter the viral state on every head with viral enabled (R53); elsewhere only the record says so. The value of the record's cause
is open (log entry 3). -/
def State.goViral (s : State) : State :=
  let s := { s with health := { s.health with viral := true } }
  let s := s.mapHeads (fun h => if h.viralEn then { h with viral := true } else h)
  let (n, s) := s.draw
  s.vendorAll .fatal 0x0104 0xFF 0xFF 0xFF 0 (Config.freeValue n 64).toNat 0

end Sys2Proof.Machine
end

