-- ==== Sys2Proof/Machine/Codes.lean ====
section
/-! DEFINITION. The codes of the channel and of the ledger: CRC-32C, CRC-8, CRC-16 of the beat code, and the BCH codes
of codewords and page tags (R167, R168, R169, R177, R178, R259). -/

namespace Sys2Proof.Machine

/-! ## CRCs -/

/-- One bit of the reflected CRC-32C register. -/
def crc32cBit (c : Nat) : Nat := if c % 2 = 1 then (c / 2) ^^^ 0x82F63B78 else c / 2

/-- One byte of CRC-32C. -/
def crc32cByte (c : Nat) (b : Byte) : Nat := (List.range 8).foldl (fun c _ => crc32cBit c) (c ^^^ b.toNat)

/-- CRC-32C over bytes (R177, R478). -/
def crc32c (bs : List Byte) : Nat := (bs.foldl crc32cByte 0xFFFFFFFF) ^^^ 0xFFFFFFFF

/-- CRC-8, polynomial 0x07, initial value 0 (R178). -/
def crc8 (bs : List Byte) : Nat :=
  bs.foldl (fun c b =>
    (List.range 8).foldl (fun c _ => if c ≥ 128 then ((2 * c) ^^^ 0x107) % 256 else 2 * c) (c ^^^ b.toNat)) 0

/-- CRC-16, polynomial 0x1021, initial value 0xFFFF, over the 64 bits of EPOCH, most significant first (R259). -/
def crc16Epoch (e : BitVec 64) : BitVec 16 :=
  (List.range 64).foldl (fun (c : BitVec 16) i =>
    let top := c.getLsbD 15 != e.getLsbD (63 - i)
    if top then (c <<< 1) ^^^ 0x1021#16 else c <<< 1) 0xFFFF#16

/-! ## Binary fields -/

/-- Product in GF(2^m) with the given primitive polynomial. -/
def gfMul (m poly a b : Nat) : Nat :=
  ((List.range m).foldl (fun (st : Nat × Nat) i =>
    let (acc, x) := st
    let acc := if b.testBit i then acc ^^^ x else acc
    let x := if (2 * x).testBit m then (2 * x) ^^^ poly else 2 * x
    (acc, x)) (0, a)).1

/-- Power in GF(2^m). -/
def gfPow (m poly a : Nat) : Nat → Nat
  | 0 => 1
  | n + 1 => gfMul m poly a (gfPow m poly a n)

/-- Inverse: a^(2^m − 2), by squaring. -/
def gfInv (m poly a : Nat) : Nat :=
  ((List.range (m - 1)).foldl (fun (st : Nat × Nat) _ =>
    let sq := gfMul m poly st.1 st.1
    (sq, gfMul m poly st.2 sq)) (a, 1)).2

/-- Remainder of a message polynomial (bits, highest degree first) times x^deg, modulo the generator. -/
def bchParity (gen deg : Nat) (msg : List Bool) : Nat :=
  msg.foldl (fun r b =>
    let top := r.testBit (deg - 1) != b
    let r := (2 * r) % 2 ^ deg
    if top then r ^^^ (gen % 2 ^ deg) else r) 0

/-- Primitive polynomial of the codeword code, x^10 + x^3 + 1 (R167). -/
def cwPoly : Nat := 0x409

/-- Generator of the codeword code: six errors, degree 60, zero at α^1 … α^12 (R167). -/
def cwGen : Nat := 0x1b642bb95045c4ad

/-- Bits of a vector, bit 0 first. -/
def bitsOf {w : Nat} (v : BitVec w) : List Bool := (List.range w).map v.getLsbD

/-- CHECK of 580 information bits: bit i of the result is codeword bit 580 + i. -/
def cwCheck (info : BitVec 580) : BitVec 60 :=
  let r := bchParity cwGen 60 (bitsOf info)
  (BitVec.ofNat 60 r).reverse

/-- The codeword of 580 information bits (Table 05-3). -/
def cwEncode (info : BitVec 580) : BitVec 640 := (cwCheck info ++ info).cast (by rfl)

/-- Information bits of DATA, MAC, MINOR and POISON; MARK and the reserved bits are 0 (Table 05-3). -/
def cwInfo (data : Line) (mac : BitVec 56) (minor : BitVec 8) (poison : Bool) : BitVec 580 :=
  ((BitVec.ofNat 4 (if poison then 1 else 0)) ++ minor ++ mac ++ data).cast (by rfl)

/-- DATA of information bits. -/
def infoData (i : BitVec 580) : Line := i.extractLsb' 0 512
/-- MAC of information bits. -/
def infoMac (i : BitVec 580) : BitVec 56 := i.extractLsb' 512 56
/-- MINOR of information bits. -/
def infoMinor (i : BitVec 580) : BitVec 8 := i.extractLsb' 568 8
/-- POISON of information bits. -/
def infoPoison (i : BitVec 580) : Bool := i.getLsbD 576
/-- MARK of information bits. -/
def infoMark (i : BitVec 580) : Bool := i.getLsbD 579

/-! ## Decoding -/

/-- A binary BCH code: degree and primitive polynomial of its field, errors corrected. Bit n of a word of w bits has degree w − 1 − n. -/
structure Bch where
  m : Nat
  poly : Nat
  t : Nat
deriving DecidableEq, Repr

/-- The codeword code (R167). -/
def cwCode : Bch := ⟨10, cwPoly, 6⟩

/-- The page tag code (R169). -/
def tagCode : Bch := ⟨9, 0x211, 12⟩

/-- Product in the code's field. -/
def Bch.mul (c : Bch) (a b : Nat) : Nat := gfMul c.m c.poly a b

/-- Evaluate a received word at α^e. -/
def Bch.syndrome (c : Bch) {w : Nat} (v : BitVec w) (e : Nat) : Nat :=
  let a := gfPow c.m c.poly 2 e
  (List.range w).foldl (fun acc n => (c.mul acc a) ^^^ (if v.getLsbD n then 1 else 0)) 0

/-- One round of Berlekamp–Massey: error locator, previous locator, length, shift, last discrepancy. -/
def Bch.bmStep (c : Bch) (syn : List Nat) (st : List Nat × List Nat × Nat × Nat × Nat) (n : Nat) : List Nat × List Nat × Nat × Nat × Nat :=
  let (p, b, l, m, bd) := st
  let d := (List.range (l + 1)).foldl (fun acc i => acc ^^^ c.mul (p.getD i 0) (syn.getD (n - i) 0)) 0
  if d = 0 then (p, b, l, m + 1, bd)
  else
    let f := c.mul d (gfInv c.m c.poly bd)
    let sh := List.replicate m 0 ++ b.map (c.mul f)
    let len := max p.length sh.length
    let p' := (List.range len).map (fun i => p.getD i 0 ^^^ sh.getD i 0)
    if 2 * l ≤ n then (p', p, n + 1 - l, 1, d) else (p', b, l, m + 1, bd)

/-- Error locator polynomial of the syndromes S1 … S2t, and its length. -/
def Bch.locator (c : Bch) (syn : List Nat) : List Nat × Nat :=
  let r := (List.range (2 * c.t)).foldl (c.bmStep syn) ([1], [1], 0, 1, 1)
  (r.1, r.2.2.1)

/-- Positions (bit numbers) of the errors that a locator names in a word of w bits: degree i is an error when α^(−i) is a root. -/
def Bch.positions (c : Bch) (w : Nat) (loc : List Nat) : List Nat :=
  ((List.range w).foldl (fun (st : List Nat × Nat) i =>
    let (acc, x) := st
    ((if loc.foldr (fun a r => a ^^^ c.mul r x) 0 = 0 then (w - 1 - i) :: acc else acc), c.mul x (gfInv c.m c.poly 2))) ([], 1)).1

/-- Correct up to t bits of a word: the word corrected and the number of bits, or none when uncorrectable. -/
def Bch.correct (c : Bch) {w : Nat} (v : BitVec w) : Option (BitVec w × Nat) :=
  let (loc, l) := c.locator ((List.range (2 * c.t)).map (fun i => c.syndrome v (i + 1)))
  let pos := c.positions w loc
  if l ≤ c.t ∧ pos.length = l then some (pos.foldl (fun v n => v ^^^ BitVec.ofNat w (2 ^ n)) v, l) else none

/-- Correct up to six bits (R167): information bits and number corrected, or none when uncorrectable. A word that is the codeword of its
own information bits has no error. -/
def cwDecode (v : BitVec 640) : Option (BitVec 580 × Nat) :=
  let info : BitVec 580 := v.extractLsb' 0 580
  if cwEncode info = v then some (info, 0) else (cwCode.correct v).map (fun r => (r.1.extractLsb' 0 580, r.2))

/-- Zeros among the 640 raw bits. -/
def cwZeros (v : BitVec 640) : Nat := 640 - popcount v

/-- What a codeword reads as (R168): erased, uncorrectable, or information bits with the number corrected. -/
inductive CwRead where
  | erased
  | bad
  | good (info : BitVec 580) (corrected : Nat)
deriving DecidableEq, Repr

/-- Classify a codeword by its raw bits and what its decode gave (R168). -/
def cwClass (v : BitVec 640) : Option (BitVec 580 × Nat) → CwRead
  | none => if cwZeros v ≤ 6 then .erased else .bad
  | some (i, n) => if infoMark i && cwZeros v ≤ 6 then .erased else .good i n

/-- A codeword as a READ brings it (R167, R168). -/
def cwRead (v : BitVec 640) : CwRead := cwClass v (cwDecode v)

/-- Soft decoding (Table 08-7, step 2): the 16 patterns of the four least reliable bits, each decoded hard. -/
def cwSoft (v rel : BitVec 640) : Option (BitVec 580 × Nat) :=
  (List.range 16).foldl (fun acc p =>
    match acc with
    | some r => some r
    | none =>
      cwDecode ((List.finRange 4).foldl (fun v i =>
        if p.testBit i.val then v ^^^ BitVec.ofNat 640 (2 ^ (Config.leastReliable v rel i).val) else v) v)) none

/-- Step 3 of the ladder (Table 08-7): the codeword with each threshold in the valley that the 24 READs of the sweep found, decoded soft. How the valleys
give the codeword and its least reliable bits is open (a free value of the sweep; log entry 76). -/
def cwSweep (sweep : List (BitVec 640)) : CwRead :=
  let v := Config.valley sweep
  cwClass v.1 (cwSoft v.1 v.2)

/-- Reads of a whole ladder from its first step on: a READ each of steps 0 and 1, three READ_SOFTs, and the sweep of step 3 (Table 08-7). -/
def ladderReads (first : Nat) : Nat := 29 - first

/-- What the reads of a ladder from step `first` have brought, decode by decode: the READs of steps 0 and 1, the READ_SOFTs of step 2, and once all 24 are there
the sweep of step 3 (Table 08-7). -/
def ladderTries (first : Nat) (rs : List Sense) : List CwRead :=
  (rs.take (2 - first)).map (fun r => cwRead r.bits) ++ ((rs.drop (2 - first)).take 3).map (fun r => cwClass r.bits (cwSoft r.bits r.rel)) ++
    (if ladderReads first ≤ rs.length then [cwSweep (((rs.drop (5 - first)).take 24).map (·.bits))] else [])

/-! ## Page tags (R169, Table 07-5) -/

/-- Generator of the page tag code over GF(2^9), x^9 + x^4 + 1, twelve errors, degree 108, zero at α^1 … α^24. -/
def tagGen : Nat := 0x1bdc7987af64fcbadafea6a507a9

/-- The 48 bytes of a page tag: contents, CRC-32C, 108 check bits, 20 zero bits. R169 does not number the bits of the code: the model takes
R167's order, bit 0 of byte 0 as the highest-degree coefficient and the bits following in order of byte and bit number (DEDUCED; log entry 72). -/
def pageTag (contents : List Byte) : List Byte :=
  let body := bytesAt contents 0 28
  let body := body ++ leBytes 4 (crc32c body)
  let r := bchParity tagGen 108 (body.flatMap bitsOf)
  let chk := (List.range 108).foldl (fun n i => if r.testBit (107 - i) then n + 2 ^ i else n) 0
  body ++ leBytes 16 chk

/-- Contents of a page tag (Table 07-5). -/
def tagContents (type flags key gen seq beat sectors prev : Nat) : List Byte :=
  leBytes 1 type ++ leBytes 1 flags ++ leBytes 4 key ++ leBytes 2 gen ++ leBytes 6 seq ++ leBytes 6 beat ++
    leBytes 2 sectors ++ leBytes 2 prev ++ leBytes 4 0

/-- Contents of a page tag as it is read (R169): up to twelve errors corrected, then its CRC-32C tested; none when either fails. -/
def readTag (b : List Byte) : Option (List Byte) :=
  let v : BitVec 364 := BitVec.ofNat 364 (leVal b)
  let fixed : Option (BitVec 364) := if bytesAt (pageTag (bytesAt b 0 28)) 0 46 = bytesAt b 0 46 then some v else (tagCode.correct v).map (·.1)
  match fixed with
  | none => none
  | some v =>
    let body := leBytes 32 v.toNat
    if field body 28 4 = crc32c (bytesAt body 0 28) then some (bytesAt body 0 28) else none

/-- TYPE, FLAGS, KEY, GEN, SEQ, BEAT and SECTORS of page tag contents (Table 07-5). -/
structure PageTag where
  type : Nat
  flags : Nat
  key : Nat
  gen : BitVec 16
  seq : BitVec 48
  beat : BitVec 48
  sectors : BitVec 16
deriving DecidableEq, Repr

/-- The fields of page tag contents. -/
def PageTag.ofBytes (b : List Byte) : PageTag :=
  ⟨field b 0 1, field b 1 1, field b 2 4, BitVec.ofNat 16 (field b 6 2), BitVec.ofNat 48 (field b 8 6), BitVec.ofNat 48 (field b 14 6),
    BitVec.ofNat 16 (field b 20 2)⟩

/-- A page passes its verification (R238): its tag is valid, and every codeword of the sectors written decodes with at most 3 corrected bits. -/
def pagePasses (sectors : BitVec 16) (p : PageRead) : Bool :=
  (readTag p.tag).isSome && (List.range 64).all (fun i => !sectors.getLsbD (i / 4) ||
    (match p.cws[i]? with
      | some v => (match cwRead v with | .good _ n => decide (n ≤ 3) | _ => false)
      | none => false))

/-- Stamp page tag contents with the beat at which the page is programmed or the tag written (R223). -/
def stampTag (contents : List Byte) (beat : Nat) : List Byte := contents.take 14 ++ leBytes 6 beat ++ contents.drop 20

/-- A device-driven burst: payload and its CRC-32C (R177). -/
def burstBytes (payload : List Byte) : List Byte := payload ++ leBytes 4 (crc32c payload)

/-! ## Command slots (R174, R175) -/

/-- Even parity over bits 46:0 in bit 47 (R174). -/
def slotParity (w : Nat) : BitVec 48 :=
  let v := BitVec.ofNat 48 (w % 2 ^ 47)
  if popcount v % 2 = 1 then v ||| BitVec.ofNat 48 (2 ^ 47) else v

/-- Slot of a read-like command: BLOCK, PAGE, SECTOR, FIRST, TS (Table 05-7). -/
def slotRead (op die block page sector first ts : Nat) : BitVec 48 :=
  slotParity (op + die * 2 ^ 5 + block * 2 ^ 8 + page * 2 ^ 22 + sector * 2 ^ 32 + first * 2 ^ 36 + ts * 2 ^ 38)

/-- Slot of a command that uses no field but DIE: NOP, STATUS, READ_TEMP, READ_ID, ZQCAL, PAT_WRITE, PAT_READ, DIE_RESET. -/
def slotPlain (op die : Nat) : BitVec 48 := slotParity (op + die * 2 ^ 5)

/-- Transfer t of the eight that carry a slot on CA[5:0] (R174). -/
def slotTransfer (w : BitVec 48) (t : Nat) : BitVec 6 := w.extractLsb' (6 * t) 6

/-- A slot that a die refuses as no command of Table 05-8, or as naming a page outside a 1-bit block (R175): opcodes 0x18 to 0x1F are reserved. -/
def slotReserved (w : BitVec 48) : Bool := decide (0x18 ≤ (w.extractLsb' 0 5).toNat)

/-- Slot naming a bank: PAUSE, RESUME, ABORT. -/
def slotBank (op die bank : Nat) : BitVec 48 := slotParity (op + die * 2 ^ 5 + bank * 2 ^ 8)

/-- RESET_BLOCK slot. -/
def slotReset (die block : Nat) (oneBit : Bool) : BitVec 48 :=
  slotParity (0x08 + die * 2 ^ 5 + block * 2 ^ 8 + (if oneBit then 2 ^ 22 else 0))

/-- LOAD_TS slot: set and three offsets. -/
def slotLoadTs (die set : Nat) (off : BitVec 24) : BitVec 48 :=
  slotParity (0x0C + die * 2 ^ 5 + set * 2 ^ 8 + (off.extractLsb' 0 8).toNat * 2 ^ 13 +
    (off.extractLsb' 8 8).toNat * 2 ^ 21 + (off.extractLsb' 16 8).toNat * 2 ^ 29)

/-- Slot with an address byte and a value byte: MRW, MRR, CLEAR_ALERT, READ_TS. -/
def slotReg (op die addr value : Nat) : BitVec 48 := slotParity (op + die * 2 ^ 5 + addr * 2 ^ 8 + value * 2 ^ 16)

/-- Chip-selects of a die (Table 05-6). -/
def chipSelect (dies die : Nat) : BitVec 2 := if 2 * die < dies then 1#2 else 2#2

/-- Chip-selects of a broadcast: both lines (R173). -/
def chipAll : BitVec 2 := 3#2

/-! ## Die responses (R178, Tables 05-9 and 05-10) -/

/-- A die's short response of n bytes, the last a CRC-8 over the others, is good (R178). -/
def goodReply (n : Nat) (r : List Byte) : Bool := r.length == n && crc8 (r.take (n - 1)) == (r.getD (n - 1) 0).toNat

/-- The first good response of a command and of its repeats: three that fail end it (R178; that the first counts among the three is read
from R185: DEDUCED, log entry 71). -/
def firstGood (n : Nat) (rs : List (List Byte)) : Option (List Byte) := (rs.take 3).find? (goodReply n)

/-- The cause bits and fields of a STATUS response that the device acts on (Table 05-10). -/
structure DieStatus where
  causes : BitVec 8
  failAddr : BitVec 28
  lastReject : BitVec 32
  busy : BitVec 16
  paused : BitVec 16
deriving DecidableEq, Repr

/-- A STATUS response (Table 05-10). -/
def DieStatus.ofBytes (r : List Byte) : DieStatus :=
  ⟨BitVec.ofNat 8 (field r 4 1), BitVec.ofNat 28 (field r 6 4), BitVec.ofNat 32 (field r 10 4), BitVec.ofNat 16 (field r 0 2), BitVec.ofNat 16 (field r 2 2)⟩

/-- A READ_ID response (Table 05-9). -/
def Ident.ofBytes (r : List Byte) : Ident :=
  ⟨BitVec.ofNat 16 (field r 0 2), BitVec.ofNat 8 (field r 2 1), BitVec.ofNat 128 (field r 8 16), (field r 24 1).testBit 0⟩

/-- OFF0 to OFF2 of a READ_TS response. -/
def tsOffsets (r : List Byte) : BitVec 24 := BitVec.ofNat 24 (field r 0 3)

/-- Block and page that a READ_TS response of TS31 was measured from; none: its set was loaded. -/
def tsMeasured (r : List Byte) : Option (Nat × Nat) :=
  if field r 3 1 = 1 then some (field r 4 3 / 2 ^ 10 % 2 ^ 14, field r 4 3 % 2 ^ 10) else none

/-! ## Training patterns (R177, R181) -/

/-- n bits of PRBS-15 (x¹⁵ + x¹⁴ + 1) from a register. -/
def prbs15 : Nat → BitVec 15 → List Bool
  | 0, _ => []
  | n + 1, r => let b := r.getLsbD 14 != r.getLsbD 13; b :: prbs15 n ((r <<< 1) ||| (BitVec.ofBool b).setWidth 15)

/-- The 64 bytes of a PRBS-15 pattern from an open seed. -/
def prbsPattern (seed : BitVec 15) : List Byte :=
  let bits := prbs15 512 seed
  (List.range 64).map (fun i => (List.range 8).foldl (fun (b : Byte) t => setBit b t (bits.getD (8 * i + t) false)) 0)

end Sys2Proof.Machine
end

