-- ==== Sys2Proof/Machine/Flags.lean ====
section
/-! DEFINITION. Every status the device computes from its state: dirty levels and the ceiling, admission, DevLoad, block
age and bands, and the registers of the vendor block (chapters 02, 04, 08, 13, 16, 17). -/

namespace Sys2Proof.Machine

/-! ## The Relay (R22–R25) -/

/-- Index of the relay link of a pair (R411). -/
def State.linkIx (s : State) (a b : SliceId) : Nat :=
  let lo := min a.val b.val
  let hi := max a.val b.val
  (List.range lo).foldl (fun n i => n + (s.nSlices - 1 - i)) 0 + (hi - lo - 1)

/-- The link of a pair works. -/
def State.linkUp (s : State) (a b : SliceId) : Bool := !s.health.links.getLsbD (s.linkIx a b)

/-- The relay ends of a slice work: it is neither lost nor in reset (R454, R459). -/
def State.relays (s : State) (c : SliceId) : Bool := (s.slice c).st != .lost && (s.slice c).st != .resetting

/-- Slice that carries the traffic of a failed link: the lowest whose relay ends work, with both links working (R25). -/
def State.detour (s : State) (a b : SliceId) : Option SliceId :=
  s.sliceIds.find? (fun c => c != a && c != b && s.relays c && s.linkUp a c && s.linkUp c b)

/-- How the ingress slice reaches an owner: none unreachable, else the slice in between, if any (R25, R38, R466). -/
def State.way (s : State) (a b : SliceId) : Option (Option SliceId) :=
  if !s.relays b then none
  else if a = b || s.linkUp a b then some none
  else (s.detour a b).map some

/-- A relay link is failed and its traffic is detoured (Table 02-10). -/
def State.detoured (s : State) : Bool :=
  s.sliceIds.any (fun a => s.sliceIds.any (fun b => a != b && match s.way a b with | some (some _) => true | _ => false))

/-! ## Dirty level and ceiling (R139–R142) -/

/-- Dirty level in lines: Dirty or Partial lines of frames and spill entries (R139). -/
def Front.dirtyLines (f : Front) : Nat := f.dir.foldl (fun n e => n + popcount e.2.dirty) 0 + f.spill.length

/-- Dirty level of a slice, lines. -/
def State.dirty (s : State) (k : SliceId) : Nat := (s.slice k).front.dirtyLines

/-- Frames of a slice that are not retired. -/
def State.usableFrames (s : State) (k : SliceId) : Nat :=
  131072 - ((s.slice k).front.dir.filter (fun e => e.2.retired)).length

/-- Ceiling reduced for retirement, in lines per package (R140); the scaled value is rounded down to whole lines, and so is the share
that R139 divides from it (DESIGN CHOICE: neither rounds; log entry 74). -/
def State.retireCeilLines (s : State) : Nat :=
  s.sliceIds.foldl (fun m k => min m (s.profCeiling * s.usableFrames k / 8)) (s.profCeiling * 16384)

/-- The ceiling in force, lines per package: the smallest of three (R139). -/
def State.ceilLines (s : State) : Nat :=
  min (s.profCeiling * 16384) (min (s.power.holdCeil * 16384) s.retireCeilLines)

/-- A slice's share, lines (R139). -/
def State.share (s : State) : Nat := s.ceilLines / s.nSlices

/-- Some working slice holds a spill entry (R126). -/
def State.spillHeld (s : State) : Bool := s.sliceIds.any (fun k => s.working k && !(s.slice k).front.spill.isEmpty)

/-- The dirty-ceiling test with its hysteresis (R142). -/
def State.updWithheld (s : State) : State :=
  let ws := s.sliceIds.filter s.working
  let at' := ws.any (fun k => decide (s.share ≤ s.dirty k))
  let below := ws.all (fun k => decide (64 * s.dirty k + s.share ≤ 64 * s.share))
  { s with power := { s.power with withheld := at' || (s.power.withheld && !below) } }

/-- Requests with data are withheld on every port (R126, R142). -/
def State.dataWithheld (s : State) : Bool := s.power.withheld || s.spillHeld

/-! ## Throttling (R513–R515) -/

/-- Smallest throttle percentage of any present slice: the effective percentage of every port (R515). -/
def State.pctMin (s : State) : Nat := s.sliceIds.foldl (fun m k => min m (s.slice k).pct) 100

/-- N of R514 for a trained link. -/
def linkN (l : Option Link) : Nat :=
  match l with
  | none => 1
  | some l => max 1 (121 * l.width * l.rate / (16 * 64))

/-- Admissions of a port in one 64 ns window (R514, R515): every throttling slice grants it max(1, ⌊N·p/100⌋) with the N of this port, so the smallest p decides. -/
def State.windowQuota (s : State) (p : Port) : Nat :=
  max 1 (linkN (s.head p).link * s.pctMin / 100)

/-! ## Admission (R48) -/

/-- Every request is withheld on this port: flush, SRAM loss, or IDE required and not Secure (R48). -/
def State.allWithheld (s : State) (p : Port) : Bool :=
  s.power.flush != .idle || s.power.sramLoss || (s.ideRequired p && (s.head p).ideMem.st != .secure)

/-- Writes of a port that were accepted and are not committed: they wait for a descriptor or for a rebuild (R29, R157). -/
def State.uncommitted (s : State) (p : Port) : Nat :=
  s.sliceIds.foldl (fun n k =>
    n + ((s.slice k).waiting.filter (fun r => r.write && r.port == p)).length +
      ((s.slice k).heldReqs.filter (fun h => h.req.write && h.req.port == p)).length) 0

/-- Return the credits that R48 allows a port: up to 256 of each kind, less the writes admitted and not yet committed (R126; log entry 10). -/
def State.grantPort (s : State) (p : Port) : State :=
  let h := s.head p
  if h.enabled && h.link.isSome && !s.allWithheld p && s.pctMin == 100 then
    s.updHead p (fun h => { h with credR := 256, credD := if s.dataWithheld then h.credD else 256 - s.uncommitted p })
  else s

/-- Re-evaluate admission everywhere (R48, R142). -/
def State.grantCredits (s : State) : State :=
  let s := s.updWithheld
  s.sliceIds.foldl (fun s p => s.grantPort p) s

/-- DevLoad of a response from a port (Table 02-3): 3 Severe, 2 Moderate, 1 Optimal, 0 Light. -/
def State.devLoad (s : State) (p : Port) : Fin 4 :=
  if s.dataWithheld || decide (s.pctMin < 50) then 3
  else if 3 * s.share < 4 * s.dirty p || decide (s.pctMin < 100) then 2
  else if s.share < 2 * s.dirty p then 1
  else 0

/-! ## Bands and block age (R272–R275) -/

/-- Age band of an age in beats (Table 08-4). -/
def ageBand (age : Nat) : Nat := ((List.range 11).filter (fun i => decide (10 ^ (i + 3) ≤ age))).length

/-- Temperature band of a media temperature (Table 08-5). -/
def tempBand (t : Int) : Nat := if t < 40 then 0 else if t < 65 then 1 else if t < 85 then 2 else if t ≤ 100 then 3 else 4

/-- Full program beat: the largest value not later than `top` whose low 48 bits are the record's (R263, R272). Where none is, below 2⁴⁸, it is taken
as 0 (DESIGN CHOICE: R272 gives no P then; log entry 68). -/
def fullBeat (pb : BitVec 48) (top : Nat) : Nat :=
  let c := top / 2 ^ 48 * 2 ^ 48 + pb.toNat
  if c ≤ top then c else if 2 ^ 48 ≤ c then c - 2 ^ 48 else 0

/-- Age of a block in beats (R272). -/
def State.age (s : State) (b : Block) : Nat := s.beat.now.toNat - fullBeat b.beat s.beat.now.toNat

/-- Effective band (R274). -/
def effBand (age tempMax : Nat) : Nat := if 2 ≤ tempMax then min 11 (ageBand age + (tempMax - 1)) else ageBand age

/-- Effective band of a block now. -/
def State.effBand (s : State) (b : Block) : Nat := Machine.effBand (s.age b) b.tempMax

/-- The block's age is trusted (R275). -/
def State.trusted (s : State) (b : Block) : Bool :=
  s.beat.epoch != .unfixed && !b.untrusted &&
    decide (fullBeat b.beat (s.timeRec.l.toNat + 2 ^ 47) ≤ s.beat.now.toNat)

/-- The block holds data: USE data, journal or open fold. -/
def Block.holds (b : Block) : Bool := b.use == .data || b.use == .journal || b.use == .openFold

/-- Patient calibration, or the pass that ends it (R276). -/
def State.patientCal (s : State) : Bool :=
  !(s.rst.todo.contains 11) && (s.beat.epoch == .unfixed || s.timeRec.pass != 0)

/-- CALIBRATING (R275). -/
def State.calibrating (s : State) : Bool :=
  s.patientCal ||
    s.sliceIds.any (fun k => (s.slice k).media.blocks.any (fun b => b.2.holds && !s.trusted b.2))

/-! ## Health (R250, R255) -/

/-- Worst spare-pool state of any channel (R250). -/
def State.healthState (s : State) : Nat :=
  s.sliceIds.foldl (fun m k => (s.slice k).media.health.foldl (fun m c => max m c.2) m) 0

/-- At least one channel group is read-only (R251). -/
def State.readOnly (s : State) : Bool := decide (s.healthState = 4)

/-- Governor enabled by the profile or forced by Critical (R254). -/
def State.governor (s : State) : Bool := s.governorOn || decide (3 ≤ s.healthState)

/-- Some channel is recorded absent (R97). -/
def State.anyAbsent (s : State) : Bool := !s.mediaRec.absent.isEmpty

/-- DEGRADED (R475, R536). -/
def State.degraded (s : State) : Bool :=
  s.sliceIds.any (fun k => (s.slice k).st == .lost) || s.anyAbsent || s.health.links != 0 || s.rst.skipped != 0

/-- Ledger wear limit reached (R487). -/
def State.ledgerWorn (s : State) : Bool := decide (190000 ≤ s.shadow.stores)

/-- Wear used, percent (R255): over banks, the mean RESET_COUNT of good blocks against 200,000. -/
def State.wearUsed (s : State) : Nat :=
  s.sliceIds.foldl (fun m k =>
    let md := (s.slice k).media
    (List.range 2048).foldl (fun m bank =>
      let mine := md.blocks.filter (fun b => decide (b.1 / 16384 * 16 + b.1 % 16 = bank))
      let good := mine.filter (fun b => b.2.use != .retired)
      -- a bank's good blocks are those of its 1,024 that are not retired; a failed die has none
      if good.isEmpty || md.deadDies.contains (bank / 16) then m else
        max m (good.foldl (fun n b => n + b.2.resets) 0 * 100 / ((1024 - (mine.length - good.length)) * 200000))) m) 0

/-- Spares of a bank: S0 less retirements and overflow blocks since (R222); none on a failed die, whose every block is retired (R247). Key (channel·8+die)·16+bank. -/
def Media.spares (m : Media) (excess : Nat) (bank : Nat) : Nat :=
  let retired := (m.blocks.filter (fun b => b.2.use == .retired && !b.2.factoryBad &&
    decide (b.1 / 16384 * 16 + b.1 % 16 = bank))).length
  if m.deadDies.contains (bank / 16) then 0 else SMap.getD m.s0 bank 0 - retired - excess

/-- Overflow blocks per bank that a slice's channels have taken (R97, R222). -/
def State.overflow (s : State) (k : SliceId) : Nat := s.mediaRec.h[k] - s.fused.l

/-- Spare left, percent (R255): lowest s / S0 of any bank; 100 while no inventory is recorded. A bank whose S0 is 0 has no ratio and is left out (DESIGN
CHOICE: R255 says nothing of it; log entry 68). -/
def State.spareLeft (s : State) : Nat :=
  s.sliceIds.foldl (fun m k =>
    let md := (s.slice k).media
    md.s0.foldl (fun m b => if b.2 = 0 then m else min m (md.spares (s.overflow k) b.1 * 100 / b.2)) m) 100

/-! ## Registers of the vendor block (Tables 02-9 to 02-19) -/

/-- ZOR_ID (Table 02-9): DIES_PER_CHANNEL is 0 until step 09 has run. -/
def State.regId (s : State) (p : Port) : BitVec 64 :=
  BitVec.ofNat 64 (0x7A50 + s.nSlices * 2 ^ 16 + 0xB0 * 2 ^ 24 + p.val * 2 ^ 32 +
    (if s.fused.gradeE then 2 ^ 35 else 0) + (if s.rst.todo.contains 9 then 0 else s.dies) * 2 ^ 36)

/-- SLICE_OK bits. -/
def State.sliceOk (s : State) : Nat := s.sliceIds.foldl (fun n k => if (s.slice k).ok then n + 2 ^ k.val else n) 0

/-- A Bool as a bit at a place. -/
def bitAt (b : Bool) (i : Nat) : Nat := if b then 2 ^ i else 0

/-- ZOR_STATUS (Table 02-10) as head p reads it. -/
def State.regStatus (s : State) (p : Port) : BitVec 64 :=
  BitVec.ofNat 64 (bitAt s.rst.ready 0 + bitAt s.calibrating 1 + bitAt s.degraded 2 + bitAt s.replace 3 +
    s.healthState * 2 ^ 4 + bitAt s.readOnly 7 + s.sliceOk * 2 ^ 8 + (s.roles p).toNat * 2 ^ 16 +
    s.health.causes.toNat * 2 ^ 24 + s.rst.lastStep * 2 ^ 32 + s.profNo.val * 2 ^ 36 + bitAt s.profRom 38 +
    bitAt (decide (s.pctMin < 100)) 39 + bitAt s.dataWithheld 40 + bitAt (s.head p).viral 41 +
    bitAt s.detoured 42 + bitAt s.governor 43 + bitAt s.ledgerWorn 44)

/-- ZOR_ALARM of a head (Table 02-11). -/
def Head.regAlarm (h : Head) : BitVec 64 :=
  BitVec.ofNat 64 (bitAt h.alarm.sec 0 + h.alarm.cause.toNat * 2 ^ 8 + h.alarm.slice.toNat * 2 ^ 12 +
    h.alarm.count.toNat * 2 ^ 16 + h.alarm.beat.toNat * 2 ^ 32)

/-- ZOR_CAUSE of a head (Table 02-12). -/
def Head.regCause (h : Head) : BitVec 64 :=
  BitVec.ofNat 64 (h.cause.bits.toNat + h.cause.lastReach.toNat * 2 ^ 12 + h.cause.sliceMask.toNat * 2 ^ 16)

/-- SOURCE (Table 08-2). -/
def Beat.source (b : Beat) : Nat :=
  if !b.taken && !b.lossDeclared then 3
  else if b.lost then 2
  else match b.sinceValid with
    | some n => if n ≤ 2 ^ 21 + 81 then 0 else 1
    | none => 1

/-- BEAT_STATE (Table 02-14). -/
def Beat.reg (b : Beat) : BitVec 64 :=
  BitVec.ofNat 64 (b.source + bitAt b.lost 2 + bitAt b.known 3 + bitAt (b.epoch == .host) 4 + bitAt b.codeErr 5 +
    bitAt b.resync 6 + bitAt b.backward 7 + b.lostCount.toNat * 2 ^ 16 + min b.stride (2 ^ 21 - 1) * 2 ^ 32)

/-- Mean of up to four samples of 1/8 °C, in 1/96 °C, in which it is exact (R510). -/
def meanTemp (ts : List Int) : Int := if ts.isEmpty then 0 else 12 * (ts.foldl (· + ·) 0) / (ts.length : Int)

/-- Junction temperature of a slice used for control, 1/96 °C (R510, R512). -/
def State.sliceTemp (s : State) (k : SliceId) : Int :=
  let x := s.slice k
  if x.sensorFailed then 96 * (s.throttleStart + 15 : Int) else meanTemp x.samples

/-- Whole degrees of a temperature in 1/96 °C, rounded down. -/
def wholeDeg (t : Int) : Int := t / 96

/-- A temperature as an 8-bit two's-complement field. -/
def deg8 (t : Int) : Nat := (t % 256).toNat

/-- Hottest slice and its temperature. Of slices that share the highest temperature the lowest number is named (DESIGN CHOICE: R79 names none;
log entry 68). -/
def State.hotSlice (s : State) : SliceId × Int :=
  s.sliceIds.foldl (fun m k => if m.2 < s.sliceTemp k then (k, s.sliceTemp k) else m) (0, s.sliceTemp 0)

/-- Hottest media die of the package with a reading (R184). -/
def State.mediaMax (s : State) : Option Int :=
  s.sliceIds.foldl (fun m k => (s.slice k).chans.toList.foldl (fun m c =>
    c.dies.toList.foldl (fun (m : Option Int) d =>
      if d.present && d.valid then some (match m with | none => d.temp | some v => max v d.temp) else m) m) m) none

/-- THERM_NOW (Table 02-15). -/
def State.regTherm (s : State) (p : Port) : BitVec 64 :=
  let hot := s.hotSlice
  let md := s.mediaMax.getD 0
  BitVec.ofNat 64 (deg8 (wholeDeg hot.2) + deg8 (wholeDeg (meanTemp s.power.svcSamples)) * 2 ^ 8 + deg8 md * 2 ^ 16 +
    hot.1.val * 2 ^ 24 + (match s.mediaMax with | some t => tempBand t | none => 0) * 2 ^ 27 +
    bitAt (decide (s.pctMin < 100)) 30 + bitAt (!s.power.thermL) 31 + s.pctMin * 2 ^ 32 + s.throttleStart * 2 ^ 40 +
    deg8 (wholeDeg (s.sliceTemp p)) * 2 ^ 48)

/-- Overshoot of R143, in lines per slice. -/
def State.overshoot (s : State) : Nat := 256 * s.nSlices

/-- Lines of the projection at a package ceiling given in lines (R447). -/
def State.projLines (s : State) (ceil : Nat) : Nat := ceil / s.nSlices + s.overshoot

/-- Projected flush time at a package ceiling in lines, ns, rounded down (R447): 220 µs and q · ρ · lines · 2.5 ns with the largest
sample ρ. -/
def State.projNs (s : State) (ceil : Nat) : Nat :=
  220000 + s.sliceIds.foldl (fun m k => (s.slice k).rho.foldl (fun m r => max m (s.holdRec.q * r.1 * s.projLines ceil * 5 / (512 * r.2))) m) 0

/-- 1.5 × p(c) does not exceed the margin (R448), for every sample of ρ. -/
def State.projFits (s : State) (ceil : Nat) : Bool :=
  s.sliceIds.all (fun k => (s.slice k).rho.all (fun r =>
    decide (3 * (220000 * 512 * r.2 + s.holdRec.q * r.1 * s.projLines ceil * 5) ≤ 2 * s.holdRec.margin * 1000 * 512 * r.2)))

/-- HOLDUP_STATE (Table 02-16): before step 03 has a profile, CEILING_MIB is the build's 64 MiB a slice and PROJECTED_US 0. -/
def State.regHoldup (s : State) : BitVec 64 :=
  let h := s.holdRec
  BitVec.ofNat 64 ((if h.noMeas then 0 else min h.margin 65535) + min h.flush 65535 * 2 ^ 16 +
    (if s.prof.isEmpty then 64 * s.nSlices else s.ceilLines / 16384 % 4096) * 2 ^ 32 + bitAt (!s.prof.isEmpty && decide (s.power.holdCeil < s.profCeiling)) 44 +
    bitAt s.power.belowFloor 45 + bitAt h.noMeas 46 +
    (if s.prof.isEmpty then 0 else min (s.projNs s.ceilLines / 1000) 65535) * 2 ^ 48)

/-- TQ_STATUS (Table 02-17). -/
def Queue.regStatus (q : Queue) : BitVec 64 :=
  BitVec.ofNat 64 (q.q.length + bitAt q.underrun 16 + bitAt q.overrun 17 +
    bitAt (match q.q with | [] => true | (_, f) :: _ => f) 18 + q.dropped.toNat * 2 ^ 32)

/-- TQ_CTRL (Table 02-17). -/
def Queue.regCtrl (q : Queue) : BitVec 64 :=
  BitVec.ofNat 64 (bitAt q.enable 0 + q.threshold.toNat * 2 ^ 8 + bitAt q.irqEn 18)

/-- A counter page register of slice p (Tables 02-18, 02-19); zero while the page is not released (R528). -/
def State.counterPage (s : State) (p : Port) (off : Nat) : BitVec 64 :=
  if !(s.head p).userRead then 0
  else
    let cs := (s.slice p).counters
    if off < 0x9080 then ((cs[(off - 0x9000) / 8]?).map (fun c => c.value.setWidth 64)).getD 0
    else if 0x9100 ≤ off ∧ off < 0x9180 then
      ((cs[(off - 0x9100) / 8]?).map (fun c => BitVec.ofNat 64 (c.event.toNat + c.chan.toNat * 2 ^ 16))).getD 0
    else if off = 0x9200 then
      BitVec.ofNat 64 ((List.range 16).foldl (fun n i => n + bitAt ((cs[i]?).map (·.ovf) |>.getD false) i) 0)
    else 0

/-- MSI-X table and pending-bit array (R44). -/
def Head.regMsix (h : Head) (off : Nat) : BitVec 64 :=
  if off = 0xE800 then h.pba.setWidth 64
  else if off < 0xE080 then
    match h.msix[(off - 0xE000) / 16]? with
    | some e => if off % 16 = 0 then e.addr else BitVec.ofNat 64 (e.data.toNat + bitAt e.masked 32)
    | none => 0
  else 0

/-- The value a vendor-block or counter-page register holds now (R79, R80); zero where no register is (R13). -/
def State.regNow (s : State) (p : Port) (off : Nat) : BitVec 64 :=
  if off = 0x8000 then s.regId p
  else if off = 0x8008 then s.regStatus p
  else if off = 0x8010 then (s.head p).regAlarm
  else if off = 0x8018 then (s.head p).regCause
  else if off = 0x8040 then s.beat.now
  else if off = 0x8048 then s.beat.reg
  else if off = 0x8050 then s.regTherm p
  else if off = 0x8058 then s.regHoldup
  else if off = 0x8108 then (s.head p).tq.regStatus
  else if off = 0x8110 then (s.head p).tq.regCtrl
  else if 0x9000 ≤ off ∧ off < 0xA000 then s.counterPage p off
  else if 0xE000 ≤ off ∧ off < 0xF000 then (s.head p).regMsix off
  else 0

end Sys2Proof.Machine
end

