-- ==== Sys2Proof/Machine/LedgerOps.lean ====
section
/-! DEFINITION. Operations on the ledger and its shadow array, and on stored profiles (chapter 15, R537). -/

namespace Sys2Proof.Machine

/-! ## Stores (R486–R488) -/

/-- The health summary of a store (Table 17-8). -/
def State.summary (s : State) : List Byte :=
  let md := s.mediaMax.getD 0
  let b := leBytes 4 s.shadow.stores ++ leBytes 8 s.beat.now.toNat ++ leBytes 8 (s.regStatus 0).toNat ++
    leBytes 1 (min s.wearUsed 255) ++ leBytes 1 s.spareLeft ++ leBytes 1 s.shut.result ++ leBytes 1 s.shut.unflushed.toNat ++
    leBytes 4 s.shut.dirty.toNat ++ leBytes 2 s.rst.skipped.toNat ++ leBytes 1 (deg8 (wholeDeg s.hotSlice.2)) ++ leBytes 1 (deg8 md) ++
    leBytes 4 s.health.links.toNat ++ leBytes 16 (s.mediaRec.absent.foldl (fun n a => n + 2 ^ a.mc) 0) ++ leBytes 8 s.fused.serial.toNat
  b ++ leBytes 4 (crc32c b)

/-- The unverifiable lists of the present slices are in every ledger store, once a cold start has loaded them (R352). -/
def State.listUnver (s : State) : State :=
  let old := s.protRecs
  let new := Vector.ofFn (fun (k : Fin 8) => if (s.slices[k]).st == .lost then old[k] else { old[k] with unver := (s.slices[k]).tree.unver })
  if s.rst.coldSteps.contains 10 || new = old then s else { s with led := { s.led with prot := s.led.prot.put new } }

/-- A store begins: it is counted now, and what it copies is the ledger as it stands; at 190,000 the ledger wear cause is set
(R486, R487). -/
def State.storeBegin (s : State) : State :=
  let s := s.listUnver
  let s := { s with shadow := { s.shadow with stores := s.shadow.stores + 1, led := s.led, old := some s.shadow.led } }
  if 190000 ≤ s.shadow.stores then s.setReplace 5 else s

/-- Past 200,000 stores a store reads back its pages; a page that fails twice is named in a Failure record (R487). Which pages fail
is open (log entry 3). -/
def State.readBack (s : State) : State :=
  if s.shadow.stores ≤ 200000 then s
  else
    let (d, s) := s.draw
    ((Config.readBackFails d).filter (fun n => decide (n < 256))).foldl (fun s n => s.vendorAll .failure 0x0806 0xFF 0xFF 0xFF 0 n s.shadow.stores) s

/-- A store ends: the health summary is written to its copies in turn (R537), and the pages are read back past the rated count. -/
def State.storeEnd (s : State) : State :=
  let sum := s.summary
  let a := if s.shadow.stores % 2 = 1 then sum else s.shadow.sumA
  let b := if s.shadow.stores % 2 = 0 then sum else s.shadow.sumB
  { s with shadow := { s.shadow with sumA := a, sumB := b, old := none } }.readBack

/-- The shadow after a power loss: a store that it cut short leaves each record at the copy it had or at the copy the store was writing, which of them is open
(R486; DEDUCED, log entry 101). -/
def Shadow.cutShort (x : Shadow) (m : BitVec 19) : Shadow :=
  match x.old with
  | none => x
  | some o =>
    let n := x.led
    let prof := Vector.ofFn (fun (i : Fin 4) => if m.getLsbD (15 + i.val) then o.prof[i] else n.prof[i])
    { x with
      old := none
      led := {
        boot := n.boot
        time := if m.getLsbD 1 then o.time else n.time
        fw := if m.getLsbD 2 then o.fw else n.fw
        sel := if m.getLsbD 3 then o.sel else n.sel
        rail8 := if m.getLsbD 4 then o.rail8 else n.rail8
        rail9 := if m.getLsbD 5 then o.rail9 else n.rail9
        rlog := if m.getLsbD 6 then o.rlog else n.rlog
        hold := if m.getLsbD 7 then o.hold else n.hold
        shut := if m.getLsbD 8 then o.shut else n.shut
        media := if m.getLsbD 9 then o.media else n.media
        ops := if m.getLsbD 10 then o.ops else n.ops
        group := if m.getLsbD 11 then o.group else n.group
        prot := if m.getLsbD 12 then o.prot else n.prot
        keys := if m.getLsbD 13 then o.keys else n.keys
        retire := if m.getLsbD 14 then o.retire else n.retire
        prof := prof } }

/-- A whole ledger store within one command. -/
def State.store (s : State) : State := s.storeBegin.storeEnd

/-- Refusal of a host's store: the count has reached 190,000 (Table 15-7). -/
def State.storeRefused (s : State) : Bool := decide (190000 ≤ s.shadow.stores)

/-- Change the boot progress record: ledger SRAM, and the shadow's pair, one page in turn (R470, R488). -/
def State.putBoot (s : State) (f : BootProg → BootProg) : State :=
  let c := s.led.boot.put (f s.bootProg)
  let s := { s with led := { s.led with boot := c } }
  if 1900000 ≤ max s.shadow.pageA s.shadow.pageB then s
  else
    let pa := if c.useA then s.shadow.pageA + 1 else s.shadow.pageA
    let pb := if c.useA then s.shadow.pageB else s.shadow.pageB + 1
    let s := { s with shadow := { s.shadow with led := { s.shadow.led with boot := c }, pageA := pa, pageB := pb } }
    if 1900000 ≤ max s.shadow.pageA s.shadow.pageB then s.setReplace 5 else s

/-! ## Bytes of ledger pages (R408) -/

/-- TYPE of the record on a page (Table 15-2). -/
def pageType (n : Nat) : Nat :=
  if n < 20 then [1, 1, 2, 2, 3, 3, 4, 4, 5, 5, 6, 6, 7, 7, 8, 8, 9, 9, 0x0A, 0x0A].getD n 0
  else if n < 30 then 0x0C else if n < 48 then 0x0D else if n < 120 then 0x0E else if n < 128 then 0x0B
  else 0x10 + (n - 128) % 64 / 16

/-- A header byte with a stated value: TYPE, FORMAT, SEQUENCE and the reserved bytes (Table 15-1); LENGTH and CRC are open
where the record's layout is. -/
def headByte (typ : Nat) (seq : BitVec 32) (i : Nat) : Option Byte :=
  if i = 0 then some (BitVec.ofNat 8 typ)
  else if i = 1 then some 1
  else if 4 ≤ i ∧ i < 8 then some (seq.extractLsb' (8 * (i - 4)) 8)
  else if 8 ≤ i ∧ i < 12 then some 0
  else none

/-- The 64 bytes of a copy of the time record (Tables 15-1, 15-3). -/
def timeBytes (seq : BitVec 32) (t : TimeRec) : List Byte :=
  let hd := fun (crc : Nat) => [0x02, 1] ++ leBytes 2 64 ++ leBytes 4 seq.toNat ++ leBytes 4 0 ++ leBytes 4 crc
  let body := leBytes 8 t.l.toNat ++ leBytes 8 (bitAt t.unconfirmed 0 + t.pass * 2) ++ leBytes 8 t.w.toNat ++ leBytes 8 t.tFix.toNat ++
    leBytes 8 t.delta.toNat ++ leBytes 8 t.progress
  hd (crc32c (hd 0 ++ body)) ++ body

/-- Whether a page's copy is written, and its sequence. -/
def Ledger.pageSeq (l : Ledger) (n : Nat) : Option (BitVec 32) :=
  let pick := fun (a b : Option (BitVec 32)) (isA : Bool) => if isA then a else b
  let ev := n % 2 = 0
  if n < 2 then pick (l.boot.a.map (·.1)) (l.boot.b.map (·.1)) ev
  else if n < 4 then pick (l.time.a.map (·.1)) (l.time.b.map (·.1)) ev
  else if n < 6 then pick (l.fw.a.map (·.1)) (l.fw.b.map (·.1)) ev
  else if n < 8 then pick (l.sel.a.map (·.1)) (l.sel.b.map (·.1)) ev
  else if n < 10 then none
  else if n < 12 then pick (l.rlog.a.map (·.1)) (l.rlog.b.map (·.1)) ev
  else if n < 14 then pick (l.hold.a.map (·.1)) (l.hold.b.map (·.1)) ev
  else if n < 16 then pick (l.shut.a.map (·.1)) (l.shut.b.map (·.1)) ev
  else if n < 18 then pick (l.media.a.map (·.1)) (l.media.b.map (·.1)) ev
  else if n < 20 then pick (l.ops.a.map (·.1)) (l.ops.b.map (·.1)) ev
  else if n < 30 then pick (l.group.a.map (·.1)) (l.group.b.map (·.1)) (n < 25)
  else if n < 48 then pick (l.prot.a.map (·.1)) (l.prot.b.map (·.1)) (n < 39)
  else if n < 120 then none
  else if n < 128 then pick (l.retire.a.map (·.1)) (l.retire.b.map (·.1)) (n < 124)
  else none

/-- First page of a copy: the one that holds the header. -/
def firstPage (n : Nat) : Bool := n < 21 || n = 25 || n = 30 || n = 39 || n = 120 || n = 124

/-- Byte of a ledger page: rail configuration, profiles and time record as laid out, keys zero (R484), a record's header
fields, and an open value where Table 15-2 leaves a layout open. -/
def Ledger.byte (l : Ledger) (draw n i : Nat) : Byte :=
  if n = 8 then Mem.read l.rail8 i
  else if n = 9 then Mem.read l.rail9 i
  else if n = 2 ∨ n = 3 then
    match (if n = 2 then l.time.a else l.time.b) with
    | some (q, t) => (timeBytes q t).getD i 0
    | none => 0
  else if 48 ≤ n ∧ n < 120 then 0
  else if 128 ≤ n then
    let p := (n - 128) % 64 / 16
    let c := (l.prof[p]?).getD ⟨none, none⟩
    match (if n < 192 then c.a else c.b) with
    | some (_, bs) => bs.getD ((n - 128) % 16 * 1024 + i) 0
    | none => 0
  else match l.pageSeq n with
    | none => 0
    | some q =>
      match (if firstPage n then headByte (pageType n) q i else none) with
      | some b => b
      | none => Config.ledgerByte n i draw

/-! ## Profiles (R489–R494) -/

/-- PACER fields of a profile or of PACER_SET, at an offset (R403). -/
def pacerAt (bs : List Byte) (o : Nat) : PaceParm := ⟨field bs o 1, field bs (o + 1) 1, field bs (o + 2) 1, field bs (o + 3) 1, field bs (o + 4) 2, field bs (o + 6) 4⟩

/-- Limits of Table 09-4. -/
def paceOk (x : PaceParm) : Bool :=
  decide (5 ≤ x.normal ∧ x.normal ≤ 50 ∧ x.normal ≤ x.sprint ∧ x.sprint ≤ 75 ∧ x.idle ≤ 32 ∧ (x.maxAge = 0 ∨ (20 ≤ x.maxAge ∧ x.maxAge ≤ 32)) ∧
    16 ≤ x.cal ∧ x.cal ≤ 4096 ∧ x.cal % 16 = 0 ∧ 4096 ≤ x.tree ∧ x.tree ≤ 1048576)

/-- Six 16-bit weights at an offset. -/
def weightsAt (bs : List Byte) (o : Nat) : Vector (BitVec 16) 6 := Vector.ofFn (fun i => BitVec.ofNat 16 (field bs (o + 2 * i.val) 2))

/-- Limits of Table 06-2. -/
def arbOk (w : Vector (BitVec 16) 6) (hold : Nat) : Bool :=
  decide (64 ≤ (w[0]).toNat ∧ (w[0]).toNat ≤ 400 ∧ w.toList.foldl (fun n x => n + x.toNat) 0 ≤ 400 ∧ 56 ≤ hold ∧ hold ≤ 160) &&
    (w.toList.drop 1).all (fun x => decide (x.toNat ≤ 336))

/-- Default dirty ceiling of the build, MiB (Table 00-1). -/
def State.defaultCeiling (s : State) : Nat := 64 * s.nSlices

/-- A profile meets R492 for the present build. -/
def State.profileOk (s : State) (bs : List Byte) : Bool :=
  let n := field bs 38 2
  let regs := (List.range n).map (fun i => field bs (256 + 16 * i) 2)
  let ceil := field bs 36 2
  arbOk (weightsAt bs 64) (field bs 76 2) && paceOk (pacerAt bs 80) &&
    decide (85 ≤ field bs 34 1 ∧ field bs 34 1 ≤ 105 ∧ 1 ≤ field bs 35 1) &&
    decide (64 ≤ ceil ∧ ceil ≤ 128 * s.nSlices ∧ ceil % 64 = 0) &&
    decide (field bs 33 1 % 4 ≠ 3 ∧ n ≤ 1008) && regs.all (fun r => decide (r ≤ 16383)) && decide (regs.eraseDups.length = regs.length) &&
    (List.range 8).all (fun k => let b := field bs (49 + 2 * k) 1; decide (b % 4 ≤ 2 ∧ b / 4 % 8 ≤ 3))

/-- Some present port of a profile holds MANAGE. -/
def State.profileManages (s : State) (bs : List Byte) : Bool := (List.range s.nSlices).any (fun k => field bs (48 + 2 * k) 1 / 2 % 2 = 1)

/-- The factory profile in ROM (R494): its first 256 bytes; the rest is zero. -/
def State.factoryProfile (s : State) : List Byte :=
  leBytes 32 0 ++ leBytes 1 0 ++ leBytes 1 0 ++ leBytes 1 95 ++ leBytes 1 40 ++ leBytes 2 s.defaultCeiling ++ leBytes 2 0 ++ leBytes 8 0 ++
    (List.range 8).flatMap (fun k => leBytes 2 (if k = 0 then 0x0F else 0x01)) ++
    defaultWeights.toList.flatMap (fun w => leBytes 2 w.toNat) ++ leBytes 2 64 ++ leBytes 2 0 ++
    [20, 60, 16, 26] ++ leBytes 2 64 ++ leBytes 4 65536 ++ leBytes 166 0

/-- Put a profile's parameters in force where it reaches (R490): arbiters and Pacers take them as R198 and R314 say, or at
once in a reset (`now`). -/
def State.useProfile (s : State) (now : Bool) : State :=
  let w := weightsAt s.prof 64
  let hold := field s.prof 76 2
  let pp := pacerAt s.prof 80
  s.mapSlices (fun x => { x with
    chans := mapV x.chans (fun c => { c with arb := if now then { c.arb with weights := w, nextWeights := none, armed := none, holdLimit := hold }
      else { c.arb with nextWeights := some (w, hold) } })
    pacer := if now then { x.pacer with parm := pp, next := none } else { x.pacer with next := some pp } })

/-- Put stored profile p in force, or the factory profile with its record when neither copy is valid (R494). -/
def State.selectProfile (s : State) (p : Fin 4) : State :=
  match s.led.prof[p].cur with
  | some bs => { s with profNo := p, profRom := false, prof := bs }
  | none =>
    let s := { s with profNo := p, profRom := true, prof := s.factoryProfile }
    s.vendorAll .warning 0x0802 0xFF 0xFF 0xFF 0 p.val 0

end Sys2Proof.Machine
end

