-- ==== Sys2Proof/Machine/Background.lean ====
section
/-! DEFINITION. The background command of a head: finding it, its progress and its end (R366, R379). -/

namespace Sys2Proof.Machine

/-- The background command of a head ends (R366, R379): Background Command Status, its response, the duplicate table, vector 0. A response that a
port reset has cut is given to the duplicate table only (R76). -/
def State.endBg (s : State) (p : Port) (c : Rc) (ext : Nat) (out : Option (List Byte)) : State :=
  match (s.head p).bg with
  | none => s
  | some b =>
    let cut := (s.head p).mutedBg
    let s := s.updHead p (fun h => { h with
      bg := none
      bgLast := if h.mutedBg then h.bgLast else some ⟨b.op, c, BitVec.ofNat 16 ext⟩
      mutedBg := false
      dup := match out with
        | some pl => h.dup.map (fun (e : DupEntry) => if e.tag = b.tag && e.digest = b.digest && e.rsp.isNone then { e with rsp := some (c, pl), done := s.beat.events } else e)
        | none => h.dup })
    if cut then s
    else
    let s := match out with
      | some pl => s.emit (.mailbox (.head p) c pl)
      | none => s.emit (.reply (.head p) c .none)
    if (s.head p).bgInt then s.msix p 0 else s

/-- Head whose background command satisfies a test. -/
def State.bgOf (s : State) (f : BgKind → Bool) : Option Port := s.sliceIds.find? (fun p => match (s.head p).bg with | some b => f b.kind | none => false)

/-- Change the progress of a head's background command. -/
def State.bgProgress (s : State) (p : Port) (n : Nat) : State := s.updHead p (fun h => { h with bg := h.bg.map (fun b => { b with percent := n }) })

/-- Change the kind (the work left) of a head's background command. -/
def State.bgKind (s : State) (p : Port) (k : BgKind) : State := s.updHead p (fun h => { h with bg := h.bg.map (fun b => { b with kind := k }) })

end Sys2Proof.Machine
end

