-- ==== Sys2Proof/Machine/Crypto.lean ====
section
/-! DEFINITION. The cryptographic functions that the spec names by their standards: AES-256 (FIPS 197), AES-256-XTS
(IEEE 1619), AES-256-CMAC (NIST SP 800-38B), the counter-mode KDF (NIST SP 800-108), AES-256-KW (RFC 3394) and SHA-384
(FIPS 180-4), as R71, R320, R321, R322, R337 and R338 use them. -/

namespace Sys2Proof.Machine

/-! ## AES-256 -/

/-- Product of a byte with a coefficient below 16 in the AES field. -/
def aesMul (a b : Nat) : Nat :=
  let x := fun (v : Nat) => if v < 128 then 2 * v else (2 * v) ^^^ 0x11B
  (if b % 2 = 1 then a else 0) ^^^ (if b / 2 % 2 = 1 then x a else 0) ^^^ (if b / 4 % 2 = 1 then x (x a) else 0) ^^^ (if b / 8 % 2 = 1 then x (x (x a)) else 0)

/-- The S-box as one number, entry b at bits 8b+7 … 8b (FIPS 197): the affine map of the inverse in GF(2^8). -/
def aesSboxNum : Nat :=
  0x16bb54b00f2d99416842e6bf0d89a18cdf2855cee9871e9b948ed9691198f8e19e1dc186b95735610ef6034866b53e708a8bbd4b1f74dde8c6b4a61c2e2578ba * 2 ^ 1536 +
    0x08ae7a65eaf4566ca94ed58d6d37c8e779e4959162acd3c25c2406490a3a32e0db0b5ede14b8ee4688902a22dc4f816073195d643d7ea7c41744975fec130ccd * 2 ^ 1024 +
    0xd2f3ff1021dab6bcf5389d928f40a351a89f3c507f02f94585334d43fbaaefd0cf584c4a39becb6a5bb1fc20ed00d153842fe329b3d63b52a05a6e1b1a2c8309 * 2 ^ 512 +
    0x75b227ebe28012079a059618c323c7041531d871f1e5a534ccf73f362693fdb7c072a49cafa2d4adf04759fa7dc982ca76abd7fe2b670130c56f6bf27b777c63

/-- The inverse S-box in the same form. -/
def aesInvNum : Nat :=
  0x7d0c2155631469e126d677ba7e042b17619953833cbbebc8b0f52aae4d3be0a0ef9cc9939f7ae52d0d4ab519a97f51605fec8027591012b131c7078833a8dd1f * 2 ^ 1536 +
    0xf45acd78fec0db9a2079d2c64b3e56fc1bbe18aa0e62b76f89c5291d711af1476edf751ce837f9e28535ade72274ac9673e6b4f0cecff297eadc674f4111913a * 2 ^ 1024 +
    0x6b8a130103bdafc1020f3fca8f1e2cd00645b3b80558e4f70ad3bc8c00abd890849d8da75746155edab9edfd5048706c92b6655dcc5ca4d41698688664f6f872 * 2 ^ 512 +
    0x25d18b6d49a25b76b224d92866a12e084ec3fa420b954cee3d23c2a632947b54cbe9dec444438e3487ff2f9b8239e37cfbd7f3819ea340bf38a53630d56a0952

/-- Entry of the S-box. -/
def aesS (b : Nat) : Nat := (aesSboxNum >>> (8 * b)) % 256

/-- Entry of the inverse S-box. -/
def aesInvS (b : Nat) : Nat := (aesInvNum >>> (8 * b)) % 256

/-- Bytewise exclusive or. -/
def xorBytes (a b : List Nat) : List Nat := List.zipWith (fun x y => x ^^^ y) a b

/-- Round keys: 60 words of four bytes from a 32-byte key. -/
def aesExpand (key : List Nat) : List (List Nat) :=
  let start := (List.range 8).map (fun i => [key.getD (4 * i) 0, key.getD (4 * i + 1) 0, key.getD (4 * i + 2) 0, key.getD (4 * i + 3) 0])
  ((List.range 52).foldl (fun (st : List (List Nat) × Nat) n =>
    -- st.1: words, newest first
    let i := n + 8
    let (w, rc) := st
    let prev := w.getD 0 []
    let back := w.getD 7 []
    let sub := fun (x : List Nat) => x.map aesS
    let (t, rc) :=
      if i % 8 = 0 then
        let r := sub (prev.drop 1 ++ prev.take 1)
        (xorBytes r [rc, 0, 0, 0], aesMul rc 2)
      else if i % 8 = 4 then (sub prev, rc) else (prev, rc)
    (xorBytes back t :: w, rc)) (start.reverse, 1)).1.reverse

/-- The 16 bytes of round key r. -/
def aesRoundKey (w : List (List Nat)) (r : Nat) : List Nat := ((w.drop (4 * r)).take 4).flatten

/-- ShiftRows. -/
def aesShift (st : List Nat) : List Nat := (List.range 16).map (fun i => st.getD ((i + 4 * (i % 4)) % 16) 0)

/-- Inverse ShiftRows. -/
def aesInvShift (st : List Nat) : List Nat := (List.range 16).map (fun i => st.getD ((i + 16 - 4 * (i % 4)) % 16) 0)

/-- MixColumns with a coefficient row. -/
def aesMix (c : List Nat) (st : List Nat) : List Nat :=
  (List.range 16).map (fun i =>
    let col := i / 4
    let r := i % 4
    (List.range 4).foldl (fun acc j => acc ^^^ aesMul (st.getD (4 * col + j) 0) (c.getD ((j + 4 - r) % 4) 0)) 0)

/-- AES-256 encryption of a 16-byte block with expanded keys. -/
def aesEncW (w : List (List Nat)) (blk : List Nat) : List Nat :=
  let st := xorBytes blk (aesRoundKey w 0)
  let st := (List.range 13).foldl (fun st r =>
    xorBytes (aesMix [2, 3, 1, 1] (aesShift (st.map aesS))) (aesRoundKey w (r + 1))) st
  xorBytes (aesShift (st.map aesS)) (aesRoundKey w 14)

/-- AES-256 decryption of a 16-byte block with expanded keys. -/
def aesDecW (w : List (List Nat)) (blk : List Nat) : List Nat :=
  let st := xorBytes blk (aesRoundKey w 14)
  let st := (List.range 13).foldl (fun st r =>
    aesMix [14, 11, 13, 9] (xorBytes ((aesInvShift st).map aesInvS) (aesRoundKey w (13 - r)))) st
  xorBytes ((aesInvShift st).map aesInvS) (aesRoundKey w 0)

/-! ## CMAC, KDF -/

/-- Doubling in GF(2^128), most significant byte first. -/
def cmacDbl (b : List Nat) : List Nat :=
  let v := b.foldl (fun n x => 256 * n + x) 0
  let d := (2 * v) % 2 ^ 128
  let d := if v ≥ 2 ^ 127 then d ^^^ 0x87 else d
  (List.range 16).map (fun i => d / 256 ^ (15 - i) % 256)

/-- Blocks of 16 bytes; the last may be short. -/
def blocks16 (fuel : Nat) (m : List Nat) : List (List Nat) :=
  match fuel with
  | 0 => []
  | fuel + 1 => if m.length ≤ 16 then [m] else m.take 16 :: blocks16 fuel (m.drop 16)

/-- AES-256-CMAC (SP 800-38B), 16 bytes. -/
def cmac (key msg : List Nat) : List Nat :=
  let w := aesExpand key
  let k1 := cmacDbl (aesEncW w (List.replicate 16 0))
  let k2 := cmacDbl k1
  let bs := blocks16 (msg.length + 1) msg
  let last := bs.getLastD []
  let fin := if last.length = 16 then xorBytes last k1
    else xorBytes (last ++ 0x80 :: List.replicate (15 - last.length) 0) k2
  let acc := bs.dropLast.foldl (fun acc b => aesEncW w (xorBytes acc b)) (List.replicate 16 0)
  aesEncW w (xorBytes acc fin)

/-- Counter-mode KDF with CMAC, 256 bits: counter, label, zero byte, output length 256, big-endian (SP 800-108). The counter and the length are 32 bits wide and the
context is empty: SP 800-108 leaves these to the implementer and R322 does not give them (DESIGN CHOICE; log entry 99). -/
def kdf (key label : List Nat) : List Nat :=
  cmac key ([0, 0, 0, 1] ++ label ++ [0, 0, 0, 1, 0]) ++ cmac key ([0, 0, 0, 2] ++ label ++ [0, 0, 0, 1, 0])

/-- ASCII codes of a string. -/
def ascii (t : String) : List Nat := t.toList.map Char.toNat

/-- Little-endian byte values. -/
def leNats (n v : Nat) : List Nat := (List.range n).map (fun i => v / 256 ^ i % 256)

/-- Value of little-endian byte values. -/
def leNat (bs : List Nat) : Nat := bs.foldr (fun b n => b + 256 * n) 0

/-- MAC key of a slot's key (R322). -/
def macKeyOf (key : BitVec 512) : BitVec 256 := BitVec.ofNat 256 (leNat (kdf (leNats 32 key.toNat) (ascii "ZR-LMAC")))

/-- Device check key (R322). -/
def checkKeyOf (root : BitVec 256) : BitVec 256 := BitVec.ofNat 256 (leNat (kdf (leNats 32 root.toNat) (ascii "ZR-CCHK")))

/-- Tree key of slice k (R322). -/
def treeKeyOf (root : BitVec 256) (k : SliceId) : BitVec 256 :=
  BitVec.ofNat 256 (leNat (kdf (leNats 32 root.toNat) (ascii "ZR-TREE" ++ [k.val])))

/-- Key check value of a key (R338): first 8 bytes of the CMAC under key 1, byte 0 lowest. -/
def kcvOf (key : BitVec 512) : BitVec 64 :=
  BitVec.ofNat 64 (leNat ((cmac (leNats 32 key.toNat) (ascii "ZORASH-KEY-CHECK")).take 8))

/-! ## XTS (R320) -/

/-- Multiply an XTS tweak by α: little-endian. -/
def xtsDbl (t : Nat) : Nat := let d := (2 * t) % 2 ^ 128; if t ≥ 2 ^ 127 then d ^^^ 0x87 else d

/-- XTS tweak of a line: DPA[45:6], minor, major (Table 10-2). -/
def xtsTweak (line minor major : Nat) : Nat := line % 2 ^ 40 + minor * 2 ^ 40 + major * 2 ^ 48

/-- One XTS pass over the four blocks of a line. -/
def xtsLine (dec : Bool) (key : BitVec 512) (tweak : Nat) (d : Line) : Line :=
  let k1 := aesExpand (leNats 32 (key.toNat % 2 ^ 256))
  let k2 := aesExpand (leNats 32 (key.toNat / 2 ^ 256))
  let t0 := leNat (aesEncW k2 (leNats 16 tweak))
  let r := (List.range 4).foldl (fun (st : List Nat × Nat) i =>
    let (acc, t) := st
    let tb := leNats 16 t
    let blk := xorBytes (leNats 16 (d.toNat / 2 ^ (128 * i))) tb
    let o := xorBytes (if dec then aesDecW k1 blk else aesEncW k1 blk) tb
    (acc ++ o, xtsDbl t)) ([], t0)
  BitVec.ofNat 512 (leNat r.1)

/-- Line tag (R321): first 56 bits of the CMAC over Table 10-3. -/
def lineTag (key : BitVec 256) (data : Line) (line major minor : Nat) (poison : Bool) (keyId mode : Nat) : BitVec 56 :=
  let msg := leNats 64 data.toNat ++ leNats 5 line ++ leNats 5 major ++ [minor % 256, if poison then 1 else 0] ++
    leNats 2 keyId ++ [mode, 0]
  BitVec.ofNat 56 (leNat ((cmac (leNats 32 key.toNat) msg).take 7))

/-- Node tag (R328). -/
def nodeTag (key : BitVec 256) (node : Line) (level idx : Nat) (parent : BitVec 64) (k : SliceId) : BitVec 56 :=
  let msg := leNats 64 node.toNat ++ [level] ++ leNats 4 idx ++ leNats 8 parent.toNat ++ [k.val, 0, 0]
  BitVec.ofNat 56 (leNat ((cmac (leNats 32 key.toNat) msg).take 7))

/-! ## AES-256-KW (RFC 3394) -/

/-- Exclusive or of a step counter into an 8-byte value, big-endian. -/
def kwXor (a : List Nat) (t : Nat) : List Nat := List.zipWith (fun x i => x ^^^ (t / 256 ^ (7 - i) % 256)) a (List.range 8)

/-- Wrap 64 bytes under a key: 72 bytes. -/
def kwWrap (kek : List Nat) (p : List Nat) : List Nat :=
  let w := aesExpand kek
  let r0 := (List.range 8).map (fun i => (p.drop (8 * i)).take 8)
  let (a, r) := (List.range 48).foldl (fun (st : List Nat × List (List Nat)) n =>
    let (a, r) := st
    let i := n % 8
    let b := aesEncW w (a ++ r.getD i [])
    (kwXor (b.take 8) (n + 1), r.set i (b.drop 8))) (List.replicate 8 0xA6, r0)
  a ++ r.flatten

/-- Unwrap 72 bytes: none when the integrity value fails. -/
def kwUnwrap (kek : List Nat) (c : List Nat) : Option (List Nat) :=
  let w := aesExpand kek
  let r0 := (List.range 8).map (fun i => (c.drop (8 * i + 8)).take 8)
  let (a, r) := (List.range 48).foldl (fun (st : List Nat × List (List Nat)) m =>
    let (a, r) := st
    let n := 47 - m
    let i := n % 8
    let b := aesDecW w (kwXor a (n + 1) ++ r.getD i [])
    (b.take 8, r.set i (b.drop 8))) (c.take 8, r0)
  if a = List.replicate 8 0xA6 then some r.flatten else none

/-! ## SHA-384 (FIPS 180-4), its constants from the roots that define them -/

/-- The largest number of n bits added to r whose e-th power does not pass x, bit by bit from the top. -/
def rootFloor (e x : Nat) : Nat → Nat → Nat
  | 0, r => r
  | n + 1, r => rootFloor e x n (if (r + 2 ^ n) ^ e ≤ x then r + 2 ^ n else r)

/-- First 64 bits of the fraction of the e-th root of p. -/
def rootFraction (e p : Nat) : Nat := rootFloor e (p * 2 ^ (64 * e)) 69 0 % 2 ^ 64

/-- The first 80 primes. -/
def shaPrimes : List Nat := (List.range 410).filter (fun p => decide (2 ≤ p) && (List.range 21).all (fun d => decide (d < 2) || d == p || p % d != 0))

/-- The exclusive or of rotations of a 64-bit value to the right, by each amount of a list. -/
def rotations (x : Nat) (by' : List Nat) : Nat := by'.foldl (fun acc n => acc ^^^ (x / 2 ^ n + x * 2 ^ (64 - n) % 2 ^ 64)) 0

/-- The eight working variables of a round. -/
structure ShaVars where
  a : Nat
  b : Nat
  c : Nat
  d : Nat
  e : Nat
  f : Nat
  g : Nat
  h : Nat
deriving DecidableEq, Repr

/-- One round with constant kt: the variables step on, and the window of sixteen words slides by the word it makes. -/
def ShaVars.round (v : ShaVars) (w : List Nat) (kt : Nat) : ShaVars × List Nat :=
  let x := v.h + rotations v.e [14, 18, 41] + (v.g ^^^ (v.e &&& (v.f ^^^ v.g))) + kt + w.headD 0
  let y := rotations v.a [28, 34, 39] + ((v.a &&& v.b) ||| (v.c &&& (v.a ||| v.b)))
  let late := w.getD 14 0
  let early := w.getD 1 0
  let made := w.headD 0 + (rotations early [1, 8] ^^^ (early / 2 ^ 7)) + w.getD 9 0 + (rotations late [19, 61] ^^^ (late / 2 ^ 6))
  (⟨(x + y) % 2 ^ 64, v.a, v.b, v.c, (v.d + x) % 2 ^ 64, v.e, v.f, v.g⟩, w.tail ++ [made % 2 ^ 64])

/-- Take one block of sixteen words into the chaining value. -/
def ShaVars.absorb (v : ShaVars) (blk : List Nat) : ShaVars :=
  let r := (shaPrimes.foldl (fun (s : ShaVars × List Nat) p => s.1.round s.2 (rootFraction 3 p)) (v, blk)).1
  ⟨(v.a + r.a) % 2 ^ 64, (v.b + r.b) % 2 ^ 64, (v.c + r.c) % 2 ^ 64, (v.d + r.d) % 2 ^ 64, (v.e + r.e) % 2 ^ 64, (v.f + r.f) % 2 ^ 64,
    (v.g + r.g) % 2 ^ 64, (v.h + r.h) % 2 ^ 64⟩

/-- The chaining value before the first block: the square roots of the ninth to the sixteenth prime. -/
def ShaVars.start : ShaVars :=
  let root := fun i => rootFraction 2 (shaPrimes.getD i 0)
  ⟨root 8, root 9, root 10, root 11, root 12, root 13, root 14, root 15⟩

/-- SHA-384 as a number, first byte most significant. The padded message is taken as one number and cut into words. -/
def sha384 (msg : List Byte) : BitVec 384 :=
  let n := msg.length
  let blocks := (n + 144) / 128
  let text := msg.foldl (fun (x : Nat) b => x * 2 ^ 8 + b.toNat) 0 * 2 ^ (1024 * blocks - 8 * n) + 2 ^ (1024 * blocks - 8 * n - 1) + 8 * n
  let word := fun i => text / 2 ^ (64 * (16 * blocks - 1 - i)) % 2 ^ 64
  let r := (List.range blocks).foldl (fun (v : ShaVars) i => v.absorb ((List.range 16).map (fun t => word (16 * i + t)))) ShaVars.start
  BitVec.ofNat 64 r.a ++ BitVec.ofNat 64 r.b ++ BitVec.ofNat 64 r.c ++ BitVec.ofNat 64 r.d ++ BitVec.ofNat 64 r.e ++ BitVec.ofNat 64 r.f

/-- Digest of a vendor command (R71): the first 64 bits of SHA-384 over opcode and input payload. -/
def digestOf (op : BitVec 16) (pl : List Byte) : BitVec 64 := (sha384 (leBytes 2 op.toNat ++ pl)).extractLsb' 320 64

end Sys2Proof.Machine
end

