-- ==== Sys2Proof/Machine/Regions.lean ====
section
/-! DEFINITION. Granules, the Prism and its substitutions, placement of tree lines, and the descriptor lookaside cache
(chapter 03, R325, R329). -/

namespace Sys2Proof.Machine

/-! ## Capacity and granules -/

/-- Granules of the host-visible capacity (R81, R95): 4 · L · d · n. -/
def State.granules (s : State) : Nat := 4 * s.fused.l * s.dies * s.nSlices

/-- Host-visible capacity in bytes. -/
def State.capacity (s : State) : Nat := s.granules * 2 ^ 28

/-- Placement units of a granule on each slice it uses (R95). -/
def State.unitsPer (s : State) (spread : Bool) : Nat :=
  if spread then 256 / (s.nSlices * max 1 s.dies) else 256 / max 1 s.dies

/-- Region, descriptor and unit base of the granule that holds a DPA. -/
def State.regionAt (s : State) (dpa : Nat) : Option (Nat × Desc × Nat) :=
  match SMap.get? s.index (dpa / 2 ^ 28) with
  | none => none
  | some e => (SMap.get? s.desc e.region).map (fun d => (e.region, d, e.unitBase))

/-! ## The Prism (R96) -/

/-- Where a group lies: slice, channel, die, bank, logical block, page. -/
structure Place where
  slice : Nat
  chan : Nat
  die : Nat
  bank : Nat
  blk : Nat
  page : Nat
deriving DecidableEq, Repr

/-- log₂ of dies per channel. -/
def State.w (s : State) : Nat := if 8 ≤ s.dies then 3 else if 4 ≤ s.dies then 2 else 1

/-- The Prism of R96, before any substitution. -/
def State.prism (s : State) (d : Desc) (unitBase dpa : Nat) : Place :=
  let sb := s.fused.s.val
  let w := s.w
  let j := dpa / 2 ^ 12 % 2 ^ 16
  let k := if d.spread then sb + 8 + w else 8 + w
  let u := unitBase + j / 2 ^ k
  let h := u % 2 ^ 16 ^^^ u / 2 ^ 16
  let rest := if d.spread then j / 2 ^ sb else j
  let sl := if d.spread then (j % 2 ^ sb) ^^^ (h % 2 ^ sb) else d.localSlice.toNat
  { slice := sl
    chan := (rest % 16) ^^^ (h / 16 % 16)
    die := (rest / 16 % 2 ^ w) ^^^ (h / 256 % 2 ^ w)
    bank := (rest / 2 ^ (4 + w) % 16) ^^^ (h / 4096 % 16)
    blk := u / 1024
    page := u % 1024 }

/-- Channels of P, ascending (R97). -/
def maskList (p : BitVec 16) : List Nat := (List.range 16).filter (fun i => p.getLsbD i)

/-- Where a logical block ends up (R97, R216, R561): a place, nowhere (above 1,023), or dead (no channel present). -/
inductive Home where
  | at (p : Place)
  | nowhere
  | dead (p : Place)
deriving DecidableEq, Repr

/-- Substitute channels marked absent, one after another (R97). -/
def substitute (absent : List Absent) (fuel : Nat) (p : Place) : Home :=
  match fuel with
  | 0 => .dead p
  | fuel + 1 =>
    match absent.find? (fun a => a.mc = 16 * p.slice + p.chan) with
    | none => .at p
    | some a =>
      let ps := maskList a.p
      if ps.isEmpty then .dead p
      else
        let b := a.ob + p.blk / ps.length
        if 1023 < b then .nowhere
        else substitute absent fuel { p with chan := ps.getD (p.blk % ps.length) 0, blk := b }

/-- Key K of a place within its slice (R215). -/
def Place.key (p : Place) : Nat := p.chan * 2 ^ 17 + p.die * 2 ^ 14 + p.bank * 2 ^ 10 + p.blk

/-- Page key (R215). -/
def Place.pageKey (p : Place) : Nat := p.key * 2 ^ 10 + p.page

/-- Place named by a page key on a slice. -/
def placeOf (k p : Nat) : Place :=
  { slice := k, chan := p / 2 ^ 27 % 16, die := p / 2 ^ 24 % 8, bank := p / 2 ^ 20 % 16, blk := p / 2 ^ 10 % 1024, page := p % 1024 }

/-- Home of a data line's group. -/
def State.groupHome (s : State) (d : Desc) (unitBase dpa : Nat) : Home :=
  substitute s.mediaRec.absent 17 (s.prism d unitBase dpa)

/-! ## Tree lines (R325, R329) -/

/-- First internal address of tree lines: above every host-visible DPA (R329; log entry 11). -/
def treeBase : Nat := 0x300000000000

/-- First node of a pinned level in level-and-index order (Table 10-4). -/
def pinnedOff (level : Nat) : Nat := ((List.range 7).filter (fun i => i + 2 < level)).foldl (fun n i => n + [1048576, 131072, 16384, 2048, 256, 32, 4].getD i 0) 0

/-- Nodes of a tree level (Table 10-4). -/
def levelNodes (level : Nat) : Nat :=
  [67108864, 8388608, 1048576, 131072, 16384, 2048, 256, 32, 4].getD level 0

/-- Line address (DPA / 64) of a node's home: leaves and leaf-parents, and above them the pinned nodes. -/
def treeLine (k level idx : Nat) : Nat :=
  if level < 2 then (treeBase + k * 2 ^ 33 + level * 2 ^ 32 + idx * 64) / 64
  else (treeBase + 2 ^ 36 + k * 2 ^ 28 + (pinnedOff level + idx) * 64) / 64

/-- A line address is a tree line: its slice, level and index. -/
def treeOf (line : Nat) : Option (Nat × Nat × Nat) :=
  if treeBase / 64 ≤ line then
    let o := line - treeBase / 64
    if o < 2 ^ 30 then some (o / 2 ^ 27, o / 2 ^ 26 % 2, o % 2 ^ 26)
    else
      let n := (o - 2 ^ 30) % 2 ^ 22
      let level := ((List.range 7).filter (fun i => pinnedOff (i + 2) ≤ n)).length + 1
      some ((o - 2 ^ 30) / 2 ^ 22, level, n - pinnedOff level)
  else none

/-- Data units of a region on each slice it uses. -/
def State.dataUnits (s : State) (d : Desc) : Nat := d.count * s.unitsPer d.spread

/-- Seal index of a group of a Sealed region (R325). -/
def State.sealOf (s : State) (d : Desc) (dpa : Nat) (unitBase : Nat) : Option Nat :=
  let p := s.prism d unitBase dpa
  match d.tree.find? (fun t => t.1 = p.slice) with
  | none => none
  | some (_, base, _, _) =>
    let u := p.blk * 1024 + p.page
    let ur := u - unitBase
    let gr := dpa / 2 ^ 28 - d.base
    some (base + ((gr * s.unitsPer d.spread + ur) * 16 + p.chan) * 16 * s.dies + p.die * 16 + p.bank)

/-- Region whose seal range on slice k holds a seal index. -/
def State.sealRegion (s : State) (k sidx : Nat) : Option (Nat × Desc × Nat × Nat × Nat) :=
  s.desc.foldl (fun acc e =>
    match acc with
    | some r => some r
    | none =>
      match e.2.tree.find? (fun t => t.1 = k) with
      | some (_, base, unit, t) =>
        if base ≤ sidx ∧ sidx < base + s.dataUnits e.2 * 256 * s.dies then some (e.1, e.2, base, unit, t) else none
      | none => none) none

/-- Place and line within its page of a tree node's home (R329): in its region's tree units, or, for a pinned node, in the
slice's tree top in level-and-index order (log entry 17). -/
def State.treePlace (s : State) (k level idx : Nat) : Option (Place × Nat) :=
  let d := max 1 s.dies
  if 2 ≤ level then
    ((s.slices[k]?).bind (fun x => x.tree.top)).map (fun top =>
      let n := pinnedOff level + idx
      let p := n / 64
      let u := top + p / (256 * d)
      ({ slice := k, chan := p / (16 * d) % 16, die := p % (16 * d) / 16, bank := p % 16, blk := u / 1024, page := u % 1024 }, n % 64))
  else
    let sidx := if level = 0 then idx else idx * 8
    match s.sealRegion k sidx with
    | none => none
    | some (_, _, base, unit0, t) =>
      let sr := sidx - base
      let q := sr / (256 * d) * (16 * d) + sr % (16 * d)
      let j := sr / (16 * d) % 16
      let n := if level = 0 then q else 512 * d * t + q / 8
      let p := n / 64
      let u := unit0 + p / (16 * d)
      some ({ slice := k, chan := j ^^^ 8, die := p % (16 * d) / 16, bank := p % 16, blk := u / 1024, page := u % 1024 }, n % 64)

/-- Home of any line address, data or tree, with its line number within the page. -/
def State.lineHome (s : State) (line : Nat) : Option (Home × Nat) :=
  match treeOf line with
  | some (k, level, idx) => (s.treePlace k level idx).map (fun r => (substitute s.mediaRec.absent 17 r.1, r.2))
  | none =>
    match s.regionAt (line * 64) with
    | none => none
    | some (_, d, u) => some (s.groupHome d u (line * 64), line % 64)

/-- Owning slice of a line address. -/
def State.ownerOf (s : State) (line : Nat) : Option Nat :=
  match treeOf line with
  | some (k, _, _) => some k
  | none => (s.regionAt (line * 64)).map (fun r => (s.prism r.2.1 r.2.2 (line * 64)).slice)

/-- Undo the substitutions that put a logical block where it is (inverse of R97). -/
def unsubstitute (absent : List Absent) (fuel : Nat) (p : Place) : Place :=
  match fuel with
  | 0 => p
  | fuel + 1 =>
    match (absent.filter (fun a => a.mc / 16 = p.slice && decide (a.ob ≤ p.blk) && a.p.getLsbD p.chan)).getLast? with
    | none => p
    | some a =>
      let ps := maskList a.p
      unsubstitute absent fuel { p with chan := a.mc % 16, blk := (p.blk - a.ob) * ps.length + ps.idxOf p.chan }

/-- DPA of the 4 KiB group held at a data place (inverse of R96), when a granule owns the unit. -/
def State.groupDpa (s : State) (p : Place) : Option Nat :=
  let p := unsubstitute s.mediaRec.absent 17 p
  let u := p.blk * 1024 + p.page
  let sb := s.fused.s.val
  let w := s.w
  let h := u % 2 ^ 16 ^^^ u / 2 ^ 16
  s.index.foldl (fun acc e =>
    match acc with
    | some r => some r
    | none =>
      match SMap.get? s.desc e.2.region with
      | none => none
      | some d =>
        if e.2.unitBase ≤ u ∧ u < e.2.unitBase + s.unitsPer d.spread ∧ (d.spread ∨ d.localSlice.toNat = p.slice) then
          let rest := (p.chan ^^^ (h / 16 % 16)) + ((p.die ^^^ (h / 256 % 2 ^ w)) % 2 ^ w) * 16 +
            (p.bank ^^^ (h / 4096 % 16)) * 2 ^ (4 + w)
          let j := if d.spread then rest * 2 ^ sb + ((p.slice ^^^ (h % 2 ^ sb)) % 2 ^ sb) else rest
          let k := if d.spread then sb + 8 + w else 8 + w
          some (e.1 * 2 ^ 28 + ((u - e.2.unitBase) * 2 ^ k + j % 2 ^ k) * 4096)
        else none) none

/-- Tree line held at line i of a tree page (inverse of R329), of a slice's tree units or tree top. -/
def State.treeLineAt (s : State) (p : Place) (i : Nat) : Option Nat :=
  let p := unsubstitute s.mediaRec.absent 17 p
  let u := p.blk * 1024 + p.page
  let d := max 1 s.dies
  let top : Option Nat := (s.slices[p.slice]?).bind (fun x => x.tree.top)
  match top with
  | some t =>
    if t ≤ u ∧ u < t + ceilDiv 80 d then
      let n := ((u - t) * 256 * d + p.chan * 16 * d + p.die * 16 + p.bank) * 64 + i
      if n < 1198372 then some ((treeBase + 2 ^ 36 + p.slice * 2 ^ 28 + n * 64) / 64) else none
    else s.desc.foldl (fun acc e =>
      match acc, e.2.tree.find? (fun x => x.1 = p.slice) with
      | none, some (_, base, unit0, t) =>
        if unit0 ≤ u ∧ u < unit0 + t then
          let n := ((u - unit0) * 16 * d + p.die * 16 + p.bank) * 64 + i
          let q := if n < 512 * d * t then n else (n - 512 * d * t) * 8
          let sr := q / (16 * d) * (256 * d) + (p.chan ^^^ 8) * 16 * d + q % (16 * d)
          if sr < s.dataUnits e.2 * 256 * d then
            some (if n < 512 * d * t then treeLine p.slice 0 (base + sr) else treeLine p.slice 1 ((base + sr) / 8))
          else none
        else none
      | acc, _ => acc) none
  | none => none

/-- Line address of line i of a page, data or tree; none where no granule or tree holds the page. -/
def State.lineOfPage (s : State) (k : SliceId) (pk i : Nat) : Option Nat :=
  let p := placeOf k.val pk
  match s.treeLineAt p i with
  | some l => some l
  | none => (s.groupDpa p).map (fun d => d / 64 + i)

/-! ## Tree pseudo-LRU (R101, R120) -/

/-- Point every node above a leaf away from it. -/
def treeTouch {w : Nat} (bits : BitVec w) (node fuel : Nat) : BitVec w :=
  match fuel with
  | 0 => bits
  | fuel + 1 =>
    if node = 0 then bits
    else
      let parent := (node - 1) / 2
      treeTouch (setBit bits parent (node = 2 * parent + 1)) parent fuel

/-- Leaves below a node of a tree with n leaves, n a power of two. -/
def leavesBelow (n node fuel : Nat) : List Nat :=
  match fuel with
  | 0 => []
  | fuel + 1 =>
    if n - 1 ≤ node then [node - (n - 1)] else leavesBelow n (2 * node + 1) fuel ++ leavesBelow n (2 * node + 2) fuel

/-- Walk to a victim leaf that `ok` allows, leaving a subtree that holds none. -/
def treeVictim {w : Nat} (bits : BitVec w) (n : Nat) (ok : Nat → Bool) (node fuel : Nat) : Nat :=
  match fuel with
  | 0 => node - (n - 1)
  | fuel + 1 =>
    if n - 1 ≤ node then node - (n - 1)
    else
      let pick := if bits.getLsbD node then 2 * node + 2 else 2 * node + 1
      let pick := if (leavesBelow n pick 6).any ok then pick
        else if pick = 2 * node + 1 then 2 * node + 2 else 2 * node + 1
      treeVictim bits n ok pick fuel

/-! ## The descriptor lookaside cache (R100–R106) -/

/-- Entry that holds a region. -/
def Slice.cacheFind (x : Slice) (r : Nat) : Option (Nat × CacheEntry) := x.cache.find? (fun e => e.2.region = r)

/-- Touch a cache entry. -/
def Slice.cacheTouch (x : Slice) (e : Nat) : Slice := { x with cacheTree := treeTouch x.cacheTree (e + 31) 6 }

/-- Victim entry: the lowest that is not valid, else the pseudo-LRU walk past pinned entries (R101, R102). The entry of a fill in flight is taken already. -/
def Slice.cacheVictim (x : Slice) : Nat :=
  let free := fun (e : Nat) => !x.fill.any (fun f => f.entry = e)
  match (List.range 32).find? (fun e => free e && (SMap.get? x.cache e).isNone) with
  | some e => e
  | none => treeVictim x.cacheTree 32 (fun e => free e && match SMap.get? x.cache e with | some c => !c.pinned | none => true) 0 6

/-- Load a region's descriptor into entry e of the cache; a region stands in one entry. -/
def Slice.cacheLoad (x : Slice) (e r : Nat) (d : Option Desc) : Slice :=
  let x := { x with cache := x.cache.filter (fun c => c.2.region != r) }
  let pin := match d with | some d => d.pin | none => false
  { x with cache := SMap.put x.cache e ⟨r, pin, d⟩ }.cacheTouch e

/-- Invalidate a region: clear its entry, which a disabled cache keeps (R105), and mark a fill of it in flight (R106). -/
def Slice.cacheInvalidate (x : Slice) (r : Nat) : Slice :=
  { x with cache := if x.cacheOn then x.cache.filter (fun e => e.2.region != r) else x.cache
           fill := x.fill.map (fun f => { f with marked := f.marked || f.region == r }) }

/-- Start a descriptor fill: the victim chosen and the copy read from the table SRAM now (R29, R101). The refill of a pinned entry waits for the
fill in flight (R102); a marked one of the same region repeats itself. -/
def Slice.startFill (x : Slice) (r : Nat) (d : Option Desc) (refill : Bool) : Slice :=
  if x.fill.isSome then { x with refills := if refill && !x.refills.contains r && !x.fill.any (fun f => f.refill && f.region = r) then x.refills ++ [r] else x.refills }
  else { x with fill := some ⟨r, d, false, x.cacheVictim, refill⟩ }

/-- Start the fill of a region on a slice. -/
def State.startFill (s : State) (k : SliceId) (r : Nat) (refill : Bool) : State := s.updSlice k (·.startFill r (SMap.get? s.desc r) refill)

/-- Number of a mode in tags. -/
def Mode.num : Mode → Nat
  | .clear => 0
  | .cipher => 1
  | .sealed => 2

/-- STATE code of a descriptor (Table 03-2). -/
def RegState.num : RegState → Nat
  | .active => 1
  | .locked => 2
  | .rekeying => 3
  | .discarding => 4
  | .unavailable => 5

/-- The 64 bytes of a descriptor (Table 03-2); a Free one holds its number only. -/
def descBytes (r : Nat) : Option Desc → List Byte
  | none => leBytes 2 r ++ leBytes 62 0
  | some d => leBytes 2 r ++ leBytes 1 d.st.num ++
      leBytes 1 (d.mode.num + bitAt d.patient 2 + bitAt (!d.spread) 3 + d.localSlice.toNat * 16 + bitAt d.readFill 7) ++ leBytes 1 (bitAt d.pin 0) ++
      leBytes 1 d.cause.toNat ++ leBytes 2 d.keyId ++ leBytes 2 d.newKey ++ leBytes 1 d.rmask.toNat ++ leBytes 1 d.wmask.toNat ++ leBytes 1 d.wear.toNat ++
      leBytes 3 0 ++ leBytes 4 d.base ++ leBytes 4 d.count ++ leBytes 4 d.rekeyPtr ++ leBytes 4 d.gen.toNat ++ leBytes 8 d.beat.toNat ++
      leBytes 8 d.tag.toNat ++ leBytes 16 0

/-- No key that a region names waits to be loaded again, and the key it is rekeyed to is Loaded (R340, R349). -/
def State.keysLoaded (s : State) (d : Desc) : Bool :=
  let st := fun (n : Nat) => ((SMap.get? s.keys n).map (·.st)).getD 0
  decide (d.keyId = 0 ∨ st d.keyId ≠ 2) && (d.st != .rekeying || decide (st d.newKey = 1))

/-- First check of Table 03-3 that a request fails, 0 when it passes all (R88, R340). -/
def State.ingressCheck (s : State) (d : Desc) (p : Port) (write : Bool) : Nat :=
  if d.st == .locked || (d.st == .rekeying && !s.keysLoaded d) then 2
  else if d.st == .unavailable then 3
  else if d.st == .discarding then 4
  else if !((if write then d.wmask else d.rmask).getLsbD p.val) then 5
  else 0

/-- The head's aperture holds a DPA, for writing or reading (R93). -/
def State.inAperture (s : State) (p : Port) (write : Bool) (dpa : Nat) : Bool :=
  s.hasData p && (s.head p).maps dpa &&
    (match s.regionAt dpa with
     | some (_, d, _) => (if write then d.wmask else d.rmask).getLsbD p.val
     | none => false)

/-- Bits of present ports. -/
def State.portMask (s : State) : BitVec 8 := BitVec.ofNat 8 (2 ^ s.nSlices - 1)

end Sys2Proof.Machine
end

