-- ==== Sys2Proof/Machine/FrontStore.lean ====
section
/-! DEFINITION. The front store of a slice: words, frames, headers, directory, spill store, poison list, commits, reads
and evictions (chapter 04). -/

namespace Sys2Proof.Machine

/-! ## Words and lines -/

/-- An 80-bit SRAM word as a read gives it (Table 04-1): DATA, CHECK, VALID and POISON; with VALID clear, DATA and POISON 0 and the check bits
of that pair, whatever the array holds (R109). -/
def sramWord (data : BitVec 64) (vld psn : Bool) : BitVec 80 :=
  if vld then BitVec.ofBool psn ++ (1#1 ++ (Config.sramCheck (BitVec.ofBool psn ++ data) ++ data)) else 0#2 ++ (Config.sramCheck 0 ++ 0#64)

/-- Word i of a line on the array. -/
def Words.word (x : Words) (i : Nat) : BitVec 80 := sramWord (x.data.extractLsb' (64 * i) 64) (x.vld.getLsbD i) (x.psn.getLsbD i)

/-- SRAM die of the slice that holds word i of a line: two words on each die, in the order of open keys (R110). -/
def sramDie (i : Nat) : Nat :=
  ((List.range 8).filter (fun j => decide (Config.sramKey j < Config.sramKey i ∨ (Config.sramKey j = Config.sramKey i ∧ j < i)))).length / 2

/-- A line's words with nothing written: every VALID clear (R109). -/
def Words.blank : Words := ⟨0, 0, 0⟩

/-- A segment header with every byte zero: a free frame (R117). -/
def SegHdr.blank : SegHdr := ⟨0, false, 0, 0, 0, 0⟩

/-- SRAM contents of a frame never written. -/
def Frame.blank : Frame := ⟨SegHdr.blank, SegHdr.blank, 0, false, [], []⟩

/-- Spread a byte mask to bits. -/
def byteMask (be : BitVec 64) : Line := (List.range 64).foldl (fun m i => if be.getLsbD i then m ||| BitVec.ofNat 512 (0xFF * 2 ^ (8 * i)) else m) 0

/-- Lay bytes named by a mask over a line. -/
def mergeBytes (old new : Line) (be : BitVec 64) : Line := let m := byteMask be; (old &&& ~~~m) ||| (new &&& m)

/-- All eight words written. -/
def Words.full (d : Line) (poison : Bool) : Words := ⟨d, 0xFF, if poison then 0xFF else 0⟩

/-- The line reads poisoned: some word has POISON set (R110); a word never written reads POISON 0 (R109). -/
def Words.poisoned (x : Words) : Bool := (x.psn &&& x.vld) != 0

/-- The data a read sees: words never written read zero (R109). -/
def Words.read (x : Words) : Line :=
  (List.range 8).foldl (fun d i => if x.vld.getLsbD i then d ||| (x.data &&& BitVec.ofNat 512 ((2 ^ 64 - 1) * 2 ^ (64 * i))) else d) 0

/-- The 60 bytes of a segment header that its CRC covers (Table 04-3). -/
def SegHdr.body (h : SegHdr) : List Byte :=
  leBytes 8 (h.seg + bitAt h.present 35) ++ leBytes 4 h.valid.toNat ++ leBytes 4 h.dirty.toNat ++ leBytes 4 h.seq.toNat ++
    leBytes 6 h.firstDirty.toNat ++ leBytes 34 0

/-- A header copy as it is read (R117): all zero, a free frame; its CRC wrong, damaged (none). -/
def SegHdr.parse (b : List Byte) : Option SegHdr :=
  if b.length ≠ 64 then none
  else if b.all (· == 0) then some SegHdr.blank
  else if field b 60 4 ≠ crc32c (bytesAt b 0 60) then none
  else some ⟨field b 0 8 % 2 ^ 35, (field b 0 8).testBit 35, BitVec.ofNat 32 (field b 8 4), BitVec.ofNat 32 (field b 12 4), BitVec.ofNat 32 (field b 16 4), BitVec.ofNat 48 (field b 20 6)⟩

/-- The choice between header copies as read (Table 04-8); of two good copies the later SEQUENCE. -/
def chooseHdr : Option SegHdr → Option SegHdr → Option SegHdr
  | some a, some b => if seqLater b.seq a.seq then some b else some a
  | some a, none => some a
  | none, b => b

/-- The 64 bytes of a segment header with its CRC-32C. -/
def SegHdr.bytes (h : SegHdr) : List Byte := if h = SegHdr.blank then leBytes 64 0 else h.body ++ leBytes 4 (crc32c h.body)

/-! ## Directory -/

/-- Set of a segment (R121). -/
def setOf (salt : BitVec 35) (seg : Nat) : Nat :=
  (seg ^^^ salt.toNat) * 0x3A9C64D2B % 2 ^ 35 / 2 ^ 22

/-- An empty directory entry. -/
def DirEntry.blank : DirEntry := ⟨0, false, 0, 0, false, false, false, 0, 0⟩

/-- The parity bit over a directory entry (R120): the low bit of the number of ones (even parity; R120 gives no sense: DESIGN CHOICE, log entry 69). -/
def DirEntry.parity (e : DirEntry) : Bool :=
  (popcount (BitVec.ofNat 35 e.seg) + popcount e.valid + popcount e.dirty + bitAt e.present 0 + bitAt e.draining 0 + bitAt e.filling 0 + bitAt e.retired 0) % 2 == 1

/-- Directory entry of a frame. -/
def Front.entry (f : Front) (n : Nat) : DirEntry := SMap.getD f.dir n DirEntry.blank

/-- Store a directory entry; an entry that is neither present nor retired is not listed. -/
def Front.putEntry (f : Front) (n : Nat) (e : DirEntry) : Front :=
  { f with dir := if e.present || e.retired then SMap.put f.dir n e else SMap.del f.dir n }

/-- Frame that holds a segment. -/
def Front.find (f : Front) (seg : Nat) : Option (Nat × DirEntry) := f.dir.find? (fun e => e.2.present && e.2.seg == seg)

/-- SRAM contents of a frame. -/
def Front.frame (f : Front) (n : Nat) : Frame := SMap.getD f.frames n Frame.blank

/-- Set of the on-die spill index that a line goes to: 256 sets of 8 ways, indexed by line address (R125; which bits, is the model's: log entry 69). -/
def spillSet (line : Nat) : Nat := line % 256

/-- The eight ways of a line's set in the spill index. -/
def spillWays (line : Nat) : List Nat := (List.range 8).map (spillSet line * 8 + ·)

/-- Spill entry that holds a line, found through the ways of its index set (R122, R125). -/
def Front.findSpill (f : Front) (line : Nat) : Option (Nat × Spill) :=
  (spillWays line).findSome? (fun w => (SMap.get? f.spillIx w).bind (fun e => match SMap.get? f.spill e with
    | some sp => if sp.line == line then some (e, sp) else none
    | none => none))

/-- Where a line's new spill entry would go: the lowest free of the 2,048 entries and the lowest free way of its index set (DESIGN CHOICE: R123 and R125 name
none; log entry 69). -/
def Front.spillSlot (f : Front) (line : Nat) : Option (Nat × Nat) :=
  match (List.range 2048).find? (fun e => (SMap.get? f.spill e).isNone), (spillWays line).find? (fun w => (SMap.get? f.spillIx w).isNone) with
  | some e, some w => some (e, w)
  | _, _ => none

/-- Enter a line in the spill store at an entry and a way. -/
def Front.putSpill (f : Front) (e w : Nat) (sp : Spill) : Front :=
  { f with spill := SMap.put f.spill e sp, spillIx := SMap.put f.spillIx w e, spillOld := SMap.del f.spillOld e }

/-- Free spill entries (R127): the way of each and its record are cleared, and its line words stay as they are (R109). -/
def Front.freeSpill (f : Front) (p : Nat → Spill → Bool) : Front :=
  let gone := f.spill.filter (fun e => p e.1 e.2)
  { f with
    spill := f.spill.filter (fun e => !p e.1 e.2)
    spillIx := f.spillIx.filter (fun w => !gone.any (fun e => e.1 == w.2))
    spillOld := gone.foldl (fun o e => SMap.put o e.1 e.2.words) f.spillOld }

/-- The 60 bytes of a spill record that its CRC covers (Table 04-5). -/
def Spill.body (sp : Spill) : List Byte :=
  leBytes 8 (sp.line + (if sp.partially then 2 else 1) * 2 ^ 40) ++ leBytes 8 sp.mask.toNat ++ leBytes 4 sp.seq.toNat ++ leBytes 40 0

/-- The 64 bytes of a spill record. -/
def Spill.record (sp : Spill) : List Byte := sp.body ++ leBytes 4 (crc32c sp.body)

/-- What a spill record reads as (R125, R148): free, damaged, or the line, whether it is Partial, its mask and its SEQUENCE. -/
inductive RecRead where
  | free
  | damaged
  | held (line : Nat) (partially : Bool) (mask : BitVec 64) (seq : BitVec 32)
deriving DecidableEq, Repr

/-- Read a spill record: its CRC alone decides (R148); STATE 0 and 3 are reserved. -/
def readRecord (b : List Byte) : RecRead :=
  let st := field b 0 8 / 2 ^ 40 % 4
  if b.length ≠ 64 then .damaged
  else if b.all (· == 0) then .free
  else if field b 60 4 ≠ crc32c (bytesAt b 0 60) || st == 0 || st == 3 then .damaged
  else .held (field b 0 8 % 2 ^ 40) (st == 2) (BitVec.ofNat 64 (field b 8 8)) (BitVec.ofNat 32 (field b 16 4))

/-- Touch a way in its set (R124). -/
def Front.touch (f : Front) (n : Nat) : Front :=
  { f with plru := SMap.put f.plru (n / 16) (treeTouch (SMap.getD f.plru (n / 16) 0) (n % 16 + 15) 5) }

/-- A way is evictable (R123). -/
def DirEntry.evictable (e : DirEntry) : Bool := e.present && !e.retired && !e.draining && !e.filling && e.dirty == 0

/-- Frame to allocate in a set: the lowest way not present and not retired, else the pseudo-LRU victim (R123). -/
def Front.pick (f : Front) (set : Nat) : Option Nat :=
  match (List.range 16).find? (fun w => !(f.entry (16 * set + w)).present && !(f.entry (16 * set + w)).retired) with
  | some w => some (16 * set + w)
  | none =>
    let ok := fun w => (f.entry (16 * set + w)).evictable
    if (List.range 16).any ok then some (16 * set + treeVictim (SMap.getD f.plru set 0) 16 ok 0 5) else none

/-- Write both header copies of a frame from its directory entry, SEQUENCE rising by one (R119). -/
def Front.writeHdr (f : Front) (n : Nat) (now : BitVec 64) : Front :=
  let e := f.entry n
  let fr := f.frame n
  let first : BitVec 48 := if e.dirty = 0 then 0 else if fr.hdrB.dirty = 0 then now.setWidth 48 else fr.hdrB.firstDirty
  let h : SegHdr := if e.present then ⟨e.seg, true, e.valid, e.dirty, fr.hdrB.seq + 1, first⟩ else ⟨0, false, 0, 0, fr.hdrB.seq + 1, 0⟩
  { f with frames := SMap.put f.frames n { fr with hdrA := h, hdrB := h } }

/-- Write the frame tag shadow of a frame (R119). -/
def Front.writeTag (f : Front) (n seg : Nat) (present : Bool) : Front :=
  { f with frames := SMap.put f.frames n { f.frame n with tagSeg := seg, tagPresent := present } }

/-- Give a frame to a segment: every line Invalid (R123), and its words as they were (R109). -/
def Front.assign (f : Front) (n seg : Nat) : Front :=
  (f.putEntry n { DirEntry.blank with seg := seg, present := true, retired := (f.entry n).retired }).writeTag n seg true

/-- Free a frame (R149, R341): the segment leaves it, and its words stay as they were (R109). -/
def Front.release (f : Front) (n : Nat) (now : BitVec 64) : Front :=
  ((f.putEntry n { DirEntry.blank with retired := (f.entry n).retired }).writeHdr n now).writeTag n 0 false

/-- State of line i of an entry (Table 04-4): 0 Invalid, 1 Clean, 2 Dirty, 3 Partial. -/
def DirEntry.lineSt (e : DirEntry) (i : Nat) : Nat :=
  match e.valid.getLsbD i, e.dirty.getLsbD i with
  | false, false => 0
  | true, false => 1
  | true, true => 2
  | false, true => 3

/-- Set the state of line i. -/
def DirEntry.setLine (e : DirEntry) (i st : Nat) : DirEntry :=
  { e with valid := setBit e.valid i (st = 1 || st = 2), dirty := setBit e.dirty i (st = 2 || st = 3) }

/-- Words of line i of a frame. -/
def Frame.line (fr : Frame) (i : Nat) : Words := SMap.getD fr.lines i Words.blank

/-- Partial mask of line i. -/
def Frame.mask (fr : Frame) (i : Nat) : BitVec 64 := SMap.getD fr.masks i 0

/-- Write line i of a frame, and its mask where the commit writes one (Table 04-6). -/
def Front.writeLine (f : Front) (n i : Nat) (x : Words) (mask : Option (BitVec 64)) : Front :=
  let fr := f.frame n
  { f with frames := SMap.put f.frames n { fr with lines := SMap.put fr.lines i x, masks := match mask with | some m => SMap.put fr.masks i m | none => fr.masks } }

/-- Words of a line that byte enables touch. -/
def touchedWords (be : BitVec 64) : BitVec 8 := (List.range 8).foldl (fun m w => if be.extractLsb' (8 * w) 8 = 0 then m else setBit m w true) 0

/-- Words after a write lands on a line in state `st` (Tables 04-4 and 04-6): new bytes merged, POISON set in all eight by a poisoned write,
cleared by a full one without, kept by a partial one (R52, R110). A write of a fresh slot, a full or a poisoned one writes all eight words;
another only those it touches. -/
def Words.write (x : Words) (st : Nat) (be : BitVec 64) (d : Line) (poison : Bool) : Words :=
  let full := be = BitVec.allOnes 64
  let psn : BitVec 8 := if poison then 0xFF else if full then 0 else if x.poisoned then 0xFF else 0
  ⟨mergeBytes x.read d be, if st = 0 || full || poison then 0xFF else x.vld ||| touchedWords be, psn⟩

/-- Words that a write merges with what the line holds: those it changes only in part (Table 04-6). -/
def mergedWord (be : BitVec 64) (w : Nat) : Bool := let b := be.extractLsb' (8 * w) 8; b != 0 && b != 0xFF

/-- Commit into line i of a frame (Table 04-6, R136). -/
def Front.commitFrame (f : Front) (n i : Nat) (be : BitVec 64) (d : Line) (poison : Bool) (now : BitVec 64) : Front :=
  let e := f.entry n
  let st := e.lineSt i
  let full := be = BitVec.allOnes 64
  let x := (f.frame n).line i
  let base := if st = 0 then Words.blank else x
  let x' := base.write st be d poison
  let st' := if full || st = 1 || st = 2 then 2 else 3
  let mask := if st' = 3 then some (be ||| (if st = 3 then (f.frame n).mask i else 0)) else none
  let f := f.writeLine n i x' mask
  let e' := { e.setLine i st' with rewritten := if e.draining then setBit e.rewritten i true else e.rewritten }
  let f := f.putEntry n e'
  let f := if st = 2 && st' = 2 then f else f.writeHdr n now
  f.touch n

/-- Commit into a spill entry (Table 04-6). -/
def Front.commitSpill (f : Front) (e : Nat) (sp : Spill) (be : BitVec 64) (d : Line) (poison : Bool) : Front :=
  let full := be = BitVec.allOnes 64
  let part := !full && sp.partially
  let sp' : Spill := { sp with
    partially := part
    mask := if part then sp.mask ||| be else BitVec.allOnes 64
    seq := sp.seq + 1
    words := sp.words.write (if sp.partially then 3 else 2) be d poison
    rewritten := sp.rewritten || sp.drained }
  { f with spill := SMap.put f.spill e sp' }

/-- A new spill entry (R123 step 3). -/
def Front.newSpill (f : Front) (line : Nat) (be : BitVec 64) (d : Line) (poison : Bool) : Front :=
  match f.spillSlot line with
  | none => f
  | some (e, w) =>
    let full := be = BitVec.allOnes 64
    f.putSpill e w ⟨line, !full, if full then BitVec.allOnes 64 else be, 1, Words.blank.write 0 be d poison, false, false⟩

/-- The spill store has a free entry for a line, and its index set a free way. -/
def Front.spillRoom (f : Front) (line : Nat) : Bool := (f.spillSlot line).isSome

/-- A write to a line of a frame that is being retired goes to the spill store, with what the frame held of the line (R153). -/
def Front.moveToSpill (f : Front) (n line : Nat) (be : BitVec 64) (d : Line) (poison : Bool) (now : BitVec 64) : Front :=
  let e := f.entry n
  let i := line % 32
  let st := e.lineSt i
  let x := if st = 0 then Words.blank else (f.frame n).line i
  let full := be = BitVec.allOnes 64 ∨ st = 1 ∨ st = 2
  match f.spillSlot line with
  | none => f
  | some (ix, w) =>
    let mask := if full then BitVec.allOnes 64 else be ||| (if st = 3 then (f.frame n).mask i else 0)
    let f := f.putSpill ix w ⟨line, !decide full, mask, 1, x.write st be d poison, false, false⟩
    let e := { e.setLine i 0 with drained := setBit e.drained i false, rewritten := setBit e.rewritten i false }
    (f.putEntry n { e with draining := e.drained != 0 }).writeHdr n now

/-- Where a commit went: counters of R524. -/
inductive CommitTo where
  | frame | newFrame (evicted : Bool) | spill | newSpill
deriving DecidableEq, Repr

/-- Commit a line: spill index first, then directory, then R123. `spillOk` false: never take a spill entry (R289). None: no place for the line now. -/
def Front.commit (f : Front) (salt : BitVec 35) (now : BitVec 64) (line : Nat) (be : BitVec 64) (d : Line) (poison spillOk : Bool) :
    Option (Front × CommitTo) :=
  match f.findSpill line with
  | some (e, sp) => some (f.commitSpill e sp be d poison, .spill)
  | none =>
    let seg := line / 32
    let i := line % 32
    match f.find seg with
    | some (n, e) =>
      if e.retired && f.spillRoom line then if spillOk then some (f.moveToSpill n line be d poison now, .newSpill) else none
      else some (f.commitFrame n i be d poison now, .frame)
    | none =>
      match f.pick (setOf salt seg) with
      | some n =>
        let ev := (f.entry n).present
        some ((f.assign n seg).commitFrame n i be d poison now, .newFrame ev)
      | none => if spillOk && f.spillRoom line then some (f.newSpill line be d poison, .newSpill) else none

/-! ## Looking a line up -/

/-- What the front store holds of a line (R122). -/
inductive Look where
  /-- Clean or Dirty: words, in a frame, and whether Dirty -/
  | full (x : Words) (frame : Option Nat) (dirty : Bool)
  /-- Partial: words and mask -/
  | partly (x : Words) (mask : BitVec 64) (frame : Option Nat)
  | miss
deriving DecidableEq, Repr

/-- Look a line up: spill index, then directory (R122). -/
def Front.look (f : Front) (line : Nat) : Look :=
  match f.findSpill line with
  | some (_, sp) => if sp.partially then .partly sp.words sp.mask none else .full sp.words none true
  | none =>
    match f.find (line / 32) with
    | none => .miss
    | some (n, e) =>
      let x := (f.frame n).line (line % 32)
      match e.lineSt (line % 32) with
      | 0 => .miss
      | 3 => .partly x ((f.frame n).mask (line % 32)) (some n)
      | st => .full x (some n) (st = 2)

/-- Change the words of a line wherever the front store holds it. -/
def Front.mapWords (f : Front) (line : Nat) (g : Words → Words) : Front :=
  match f.findSpill line with
  | some (e, sp) => { f with spill := SMap.put f.spill e { sp with words := g sp.words } }
  | none =>
    match f.find (line / 32) with
    | none => f
    | some (n, _) =>
      let fr := f.frame n
      { f with frames := SMap.put f.frames n { fr with lines := SMap.put fr.lines (line % 32) (g (fr.line (line % 32))) } }

/-- Word i of a line reads as w from now on. -/
def Words.setWord (x : Words) (i : Nat) (w : BitVec 64) : Words :=
  { x with data := mergeBytes x.data (BitVec.ofNat 512 (w.toNat * 2 ^ (64 * i))) (BitVec.ofNat 64 (0xFF * 2 ^ (8 * i))) }

/-- Poison all eight words of a line where the front store holds it (R147). A drain that copied it before counts it as rewritten, so that it stays Dirty and
drains poisoned (R136). -/
def Front.poisonLine (f : Front) (line : Nat) : Front :=
  let f := f.mapWords line (fun x => { x with psn := 0xFF, vld := 0xFF })
  match f.findSpill line with
  | some (e, sp) => { f with spill := SMap.put f.spill e { sp with rewritten := sp.rewritten || sp.drained } }
  | none => match f.find (line / 32) with
    | some (n, e) => if e.draining then f.putEntry n { e with rewritten := setBit e.rewritten (line % 32) true } else f
    | none => f

/-- Word i of a line, wherever the front store holds it, reads as w from now on: what a miscorrection leaves (R146). -/
def Front.setWord (f : Front) (line i : Nat) (w : BitVec 64) : Front := f.mapWords line (·.setWord i w)

/-- Write a merged line into the Partial slot that holds it, in a frame, retired or not, or in the spill store: it becomes Dirty (R133). A line
held in no Partial slot is left. -/
def Front.mergeBack (f : Front) (now : BitVec 64) (line : Nat) (d : Line) (poison : Bool) : Front :=
  match f.findSpill line with
  | some (e, sp) => if sp.partially then f.commitSpill e sp (BitVec.allOnes 64) d poison else f
  | none => match f.find (line / 32) with
    | some (n, e) => if e.lineSt (line % 32) = 3 then f.commitFrame n (line % 32) (BitVec.allOnes 64) d poison now else f
    | none => f

/-- The on-die poison list: 2,048 lines (R231). -/
def Front.poisonList (f : Front) : List Nat := f.poison.take 2048

/-- Mark lines poisoned (R231). -/
def Front.addPoison (f : Front) (ls : List Nat) : Front :=
  { f with poison := ls.foldl (fun p l => if p.contains l then p else p ++ [l]) f.poison }

/-- Make a line Invalid in its frame. -/
def Front.invalidate (f : Front) (line : Nat) (now : BitVec 64) : Front :=
  match f.find (line / 32) with
  | none => f
  | some (n, e) => (f.putEntry n (e.setLine (line % 32) 0)).writeHdr n now

/-- Drop a line wherever it is held: spill entry freed, frame line Invalid, poison list cleared of it. -/
def Front.drop (f : Front) (line : Nat) (now : BitVec 64) : Front :=
  let f := { f with poison := f.poison.filter (· != line) }
  match f.findSpill line with
  | some (e, _) => f.freeSpill (fun n _ => n == e)
  | none => f.invalidate line now

/-- Lines Dirty or Partial, in frames and spill, and whether each is Partial. -/
def Front.dirtyList (f : Front) : List (Nat × Bool) :=
  f.spill.map (fun e => (e.2.line, e.2.partially)) ++
    f.dir.flatMap (fun e => ((List.range 32).filter (fun i => e.2.dirty.getLsbD i)).map (fun i => (e.2.seg * 32 + i, !e.2.valid.getLsbD i)))

/-- Put a media line into the front store as Clean, allocating under R123 steps 1 and 2 (tree nodes, R332). -/
def Front.placeClean (f : Front) (salt : BitVec 35) (now : BitVec 64) (line : Nat) (d : Line) : Front :=
  let seg := line / 32
  let i := line % 32
  let go := fun (f : Front) (n : Nat) =>
    let f := f.writeLine n i (Words.full d false) none
    let f := f.putEntry n ((f.entry n).setLine i 1)
    (f.writeHdr n now).touch n
  if (f.findSpill line).isSome then f
  else match f.find seg with
  | some (n, e) => if e.lineSt i = 0 then go f n else f
  | none =>
    match f.pick (setOf salt seg) with
    | some n => go (f.assign n seg) n
    | none => f

/-- Land a fill in the frame taken for it (R138): Invalid lines become Clean, Partial ones Dirty with the slot's bytes over the media data, others
stay, and so does a line that the spill store holds (R122). `ls` gives the sector's lines: number in the segment, data, poison. `more`: another
fill of the frame is still to land. -/
def Front.landFill (f : Front) (n : Nat) (now : BitVec 64) (ls : List (Nat × Line × Bool)) (more : Bool) : Front :=
  let f := ls.foldl (fun f (i, d, p) =>
    let e := f.entry n
    let fr := f.frame n
    if (f.findSpill (e.seg * 32 + i)).isSome then f
    else match e.lineSt i with
    | 0 => (f.writeLine n i (Words.full d p) none).putEntry n (e.setLine i 1)
    | 3 =>
      let x := fr.line i
      let m := mergeBytes d x.data (fr.mask i)
      (f.writeLine n i (Words.full m (p || x.poisoned)) none).putEntry n (e.setLine i 2)
    | _ => f) f
  (f.putEntry n { f.entry n with filling := more }).writeHdr n now

/-! ## The map of the SRAM (R114, Table 04-2) -/

/-- What an area of a slice's SRAM holds (Table 04-2). -/
inductive SramArea where
  | frames | descriptors | blockMap | overlay | blockStates | parity | mapJournal | freeLists | pinned | headLines | masks | tagShadow | spill | reserved
deriving DecidableEq, Repr

/-- First byte of each area, ascending. -/
def sramMap : List (Nat × SramArea) :=
  [(0, .frames), (0x10000000, .descriptors), (0x10100000, .blockMap), (0x11100000, .overlay), (0x12100000, .blockStates), (0x14100000, .parity),
    (0x14900000, .mapJournal), (0x14D00000, .freeLists), (0x15100000, .pinned), (0x1A100000, .headLines), (0x1B100000, .masks), (0x1D100000, .tagShadow),
    (0x1D200000, .spill), (0x1D240000, .reserved)]

/-- Area that holds a byte of the 512 MiB, and the offset within it. -/
def sramArea (a : Nat) : SramArea × Nat :=
  match (sramMap.filter (fun e => decide (e.1 ≤ a))).getLast? with
  | some (base, x) => (x, a - base)
  | none => (.reserved, a)

/-- First byte of an area. -/
def SramArea.base (x : SramArea) : Nat := ((sramMap.find? (fun e => e.2 == x)).map (·.1)).getD 0

/-- Word address of a line's first word in the slice's SRAM, for the error log (R116, R151). -/
def wordOf (n i : Nat) : Nat := (if i < 2 then SramArea.headLines.base + n * 128 + i * 64 else SramArea.frames.base + n * 2048 + i * 64) / 8

/-- Word address of a spill entry's line. -/
def spillWord (e : Nat) : Nat := (SramArea.spill.base + e * 128) / 8

/-- The segment, line and line state that a word of a frame's lines belongs to: frame, line number; none for a header (R116). -/
def slotOfWord (w : Nat) : Option (Nat × Nat) :=
  match sramArea (w * 8) with
  | (.frames, o) => if 2 ≤ o % 2048 / 64 then some (o / 2048, o % 2048 / 64) else none
  | (.headLines, o) => some (o / 128, o % 128 / 64)
  | _ => none

/-- A line that the front store holds Clean, Dirty or Partial, by a word of it. -/
def Front.lineOfWord (f : Front) (w : Nat) : Option Nat :=
  match slotOfWord w with
  | some (n, i) => let e := f.entry n; if e.present ∧ e.lineSt i ≠ 0 then some (e.seg * 32 + i) else none
  | none => match sramArea (w * 8) with
    | (.spill, o) => if o % 128 < 64 then (SMap.get? f.spill (o / 128)).map (·.line) else none
    | _ => none

/-- A 64-bit word of a byte list. -/
def wordAt (b : List Byte) (i : Nat) : BitVec 64 := BitVec.ofNat 64 (field b (8 * i) 8)

/-- A word of the areas that this chapter defines, as a read gives it: lines, header copies, partial masks, tag shadow and spill store. A word
never written has VALID clear, unless step 07 wrote zero to every word (R112, R113). -/
def Front.word (f : Front) (w : Nat) : BitVec 80 :=
  let written := fun (o : Option (BitVec 64)) => match o with | some v => sramWord v true false | none => sramWord 0 f.zeroed false
  let line := fun (x : Words) (i : Nat) => if x.vld.getLsbD i then x.word i else sramWord 0 f.zeroed false
  match sramArea (w * 8) with
  | (.frames, o) =>
    let n := o / 2048
    let i := o % 2048 / 64
    if i = 0 then written ((SMap.get? f.frames n).map (fun fr => wordAt fr.hdrA.bytes (w % 8)))
    else if i = 1 then written ((SMap.get? f.frames n).map (fun fr => wordAt fr.hdrB.bytes (w % 8)))
    else line ((f.frame n).line i) (w % 8)
  | (.headLines, o) => line ((f.frame (o / 128)).line (o % 128 / 64)) (w % 8)
  | (.masks, o) => written ((SMap.get? f.frames (o / 256)).bind (fun fr => SMap.get? fr.masks (o % 256 / 8)))
  | (.tagShadow, o) => written ((SMap.get? f.frames (o / 8)).map (fun fr => BitVec.ofNat 64 (fr.tagSeg + bitAt fr.tagPresent 35)))
  | (.spill, o) => match SMap.get? f.spill (o / 128) with
    | some sp => if o % 128 < 64 then line sp.words (w % 8) else sramWord (wordAt sp.record (w % 8)) true false
    | none => match SMap.get? f.spillOld (o / 128) with
      | some x => if o % 128 < 64 then line x (w % 8) else sramWord 0 true false
      | none => sramWord 0 f.zeroed false
  | _ => sramWord 0 f.zeroed false

/-! ## Header choice and rebuild (R148, R149, R156) -/

/-- The header in use of a frame, from its copies as read: the stored copies, but where the read found other bytes. -/
def Front.headerOf (f : Front) (n : Nat) (found : List HdrRead) : Option SegHdr :=
  let read := fun (isA : Bool) (h : SegHdr) => match found.find? (fun x => x.frame = n ∧ x.isA = isA) with
    | some x => SegHdr.parse x.bytes
    | none => some h
  chooseHdr (read true (f.frame n).hdrA) (read false (f.frame n).hdrB)

/-- Both copies are written from the one used (R148). -/
def Front.settleHdr (f : Front) (n : Nat) (h : SegHdr) : Front :=
  if h = SegHdr.blank && (SMap.get? f.frames n).isNone then f
  else { f with frames := SMap.put f.frames n { f.frame n with hdrA := h, hdrB := h } }

/-- Frames of a list whose header the rebuild or the drain reads: those with a usable copy settled, and the others (R149). -/
def Front.settleAll (f : Front) (ns : List Nat) (found : List HdrRead) : Front × List Nat :=
  ns.foldl (fun (acc : Front × List Nat) n => match acc.1.headerOf n found with
    | some h => (acc.1.settleHdr n h, acc.2)
    | none => (acc.1, acc.2 ++ [n])) (f, [])

/-- Spill records as a rebuild or a drain reads them (R148, R156): each by its CRC alone; a record that reads free frees its entry, one that reads
held gives the entry, and a damaged one leaves an entry that cannot be told. -/
def Front.rereadSpill (f : Front) (found : List SpillRead) : Front × List Nat :=
  found.foldl (fun (acc : Front × List Nat) r =>
    match readRecord r.bytes with
    | .free => (acc.1.freeSpill (fun n _ => n == r.entry), acc.2)
    | .damaged => (acc.1, acc.2 ++ [r.entry])
    | .held line part mask seq =>
      let old := match SMap.get? acc.1.spill r.entry with
        | some sp => sp.words
        | none => SMap.getD acc.1.spillOld r.entry Words.blank
      let f := acc.1.freeSpill (fun n _ => n == r.entry)
      match (spillWays line).find? (fun w => (SMap.get? f.spillIx w).isNone) with
      | some w => (f.putSpill r.entry w ⟨line, part, mask, seq, old, false, false⟩, acc.2)
      | none => (acc.1, acc.2 ++ [r.entry])) (f, [])

/-- Rebuild one set's directory entries from its headers (R150). The entry that failed its parity gave DRAINING, FILLING, RETIRED and the on-die
masks too; the model keeps those of the entry (DESIGN CHOICE: R150 names the headers alone; log entry 70). -/
def Front.rebuildSet (f : Front) (set : Nat) : Front :=
  (List.range 16).foldl (fun f w =>
    let n := 16 * set + w
    let h := (f.frame n).hdrB
    let e := f.entry n
    f.putEntry n { DirEntry.blank with seg := h.seg, present := h.present, valid := h.valid, dirty := h.dirty, retired := e.retired,
                                       draining := e.draining, filling := e.filling, drained := e.drained, rewritten := e.rewritten }) f

/-- Rebuild the directory and spill index from the SRAM (R156): retired frames stay retired, flags and masks are lost, and the spill entries take ways of
their sets in order. -/
def Front.rebuild (f : Front) (retired : List Nat) : Front :=
  let dir : SMap DirEntry := f.frames.foldl (fun d e =>
    let h := e.2.hdrB
    if retired.contains e.1 then d
    else if h.present then SMap.put d e.1 { DirEntry.blank with seg := h.seg, present := true, valid := h.valid, dirty := h.dirty } else d) []
  let dir := retired.foldl (fun d n => SMap.put d n { DirEntry.blank with retired := true }) dir
  let ix : SMap Nat := f.spill.foldl (fun ix e => match (spillWays e.2.line).find? (fun w => (SMap.get? ix w).isNone) with
    | some w => SMap.put ix w e.1
    | none => ix) []
  { f with dir := dir, plru := [], spill := f.spill.map (fun e => (e.1, { e.2 with drained := false, rewritten := false })), spillIx := ix, rewrites := []
           rebuiltSet := none }

/-! ## SRAM errors (R144–R151) -/

/-- Note an error of a word (R151): logged at its first uncorrectable error or third corrected one in 2²⁰ beats. -/
def Front.noteErr (f : Front) (word events : Nat) (bad : Bool) (now : BitVec 64) : Front :=
  let recent := fun (l : List Nat) => l.filter (fun t => decide (events < t + 2 ^ 20))
  match f.errs.find? (fun e => e.word = word) with
  | none => { f with errs := f.errs ++ [⟨word, if bad then 1 else 0, if bad then [] else [events], now⟩] }
  | some e =>
    let ts := if bad then recent e.times else recent e.times ++ [events]
    let kind : BitVec 2 := if e.kind != 0 then e.kind else if bad then 1 else if 3 ≤ ts.length then 2 else 0
    { f with errs := f.errs.map (fun x => if x.word = word then
        { x with kind := kind, times := ts, beat := if x.kind = 0 && kind != 0 then now else x.beat } else x) }

/-- What the code takes the bit errors of a line's words for, beginning at word i: a word with three or more bits in error is
detected, or is miscorrected as one with one or two, and reads as what the code gave (R146; log entry 12). -/
def State.decodeWords (s : State) (k : SliceId) (line : Option Nat) : Nat → List Nat → List Nat × State
  | _, [] => ([], s)
  | i, n :: ns =>
    if n < 3 then
      let (es, s) := s.decodeWords k line (i + 1) ns
      (n :: es, s)
    else
      let (d, s) := s.draw
      match Config.miscorrected d with
      | none =>
        let (es, s) := s.decodeWords k line (i + 1) ns
        (n :: es, s)
      | some (two, w) =>
        let s := match line with
          | some l => s.updFront k (fun f => f.setWord l i w)
          | none => s
        let (es, s) := s.decodeWords k line (i + 1) ns
        ((if two then 2 else 1) :: es, s)

/-- An error operand of 100 or more: the word's VALID bit reads clear (R111). -/
def vldLost (n : Nat) : Bool := decide (100 ≤ n)

/-- What a read finds in the eight words of a line the front store holds: bits in error as the code takes them; a word with VALID clear is
uncorrectable (R111). -/
def State.lineErrs (s : State) (k : SliceId) (line : Nat) (errs : List Nat) : List Nat × State :=
  let gone : BitVec 8 := (List.range 8).foldl (fun m i => if vldLost (errs.getD i 0) then setBit m i true else m) 0
  let s := if gone = 0 then s else s.updFront k (·.mapWords line (fun x => { x with vld := x.vld &&& ~~~gone }))
  let (found, s) := s.decodeWords k (some line) 0 (errs.map (fun n => if vldLost n then 0 else n))
  let vld : BitVec 8 := match (s.slice k).front.look line with
    | .full x _ _ | .partly x _ _ => x.vld
    | .miss => 0xFF
  ((List.range 8).map (fun i => if vld.getLsbD i then found.getD i 0 else 3), s)

/-- Effect of the bit errors found in the words of a line read: words corrected by one and by two bits, and whether some
word is uncorrectable (R144, R146; log entry 12). -/
def errSummary (errs : List Nat) : Nat × Nat × Bool :=
  errs.foldl (fun (st : Nat × Nat × Bool) n =>
    (if n = 1 then st.1 + 1 else st.1, if n = 2 then st.2.1 + 1 else st.2.1, st.2.2 || decide (3 ≤ n))) (0, 0, false)

/-- Where the front store holds a line: the address of its first word. -/
def Front.wordOfLine (f : Front) (line : Nat) : Nat :=
  match f.findSpill line with
  | some (e, _) => spillWord e
  | none => (f.find (line / 32)).elim 0 (fun n => wordOf n.1 (line % 32))

/-- Count the words corrected and log them. -/
def State.noteErrs (s : State) (k : SliceId) (word : Nat) (errs : List Nat) : State :=
  let (one, two, bad) := errSummary errs
  let s := s.count k 0x205 one
  let s := s.count k 0x206 two
  let s := s.addError 0 (one + two)
  let s := if bad then (s.count k 0x207).addError 1 else s
  (List.range errs.length).foldl (fun s i =>
    let n := errs.getD i 0
    if n = 0 then s
    else
      let s := s.updFront k (fun f => f.noteErr (word + i) s.beat.events (decide (3 ≤ n)) s.beat.now)
      if n = 2 then s.updFront k (fun f => { f with rewrites := f.rewrites ++ [word + i] }) else s) s

/-- A read of some words of a line, by a host, a merge or a drain: errors are corrected, counted and logged (R111, R144, R151). Answers the word that
is uncorrectable, when there is one; a line that the front store does not hold gives none. -/
def State.sramRead (s : State) (k : SliceId) (line : Nat) (which : Nat → Bool) (errs : List Nat) : Option Nat × State :=
  match (s.slice k).front.look line with
  | .miss => (none, s)
  | _ =>
    let word := (s.slice k).front.wordOfLine line
    let only := fun (l : List Nat) => (List.range 8).map (fun i => if which i then l.getD i 0 else 0)
    let (errs, s) := s.lineErrs k line (only errs)
    ((List.range 8).find? (fun i => decide (3 ≤ (only errs).getD i 0)), s.noteErrs k word (only errs))

/-- A hit of a line in a frame touches its way (R124). -/
def Front.touchLine (f : Front) (line : Nat) : Front :=
  match f.look line with
  | .full _ (some n) _ => f.touch n
  | _ => f

/-! ## Committing through the state -/

/-- The tree node that makes a line unverifiable, when there is one (R352). -/
def State.unverNode (s : State) (k : SliceId) (line : Nat) : Option (Nat × Nat) :=
  match treeOf line with
  | some _ => none
  | none =>
    match s.regionAt (line * 64) with
    | some (_, d, u) =>
      if d.mode == .sealed then
        match s.sealOf d (line * 64) u with
        | some i => (s.slice k).tree.unver.find? (fun n => decide (n.1 ≤ 8 ∧ i / 8 ^ n.1 = n.2))
        | none => none
      else none
    | none => none

/-- Mark reads in flight of a line as overtaken by a commit (R133, R289), and drop held repairs of it. -/
def Slice.overtake (x : Slice) (line : Nat) : Slice :=
  { x with reads := x.reads.map (fun r =>
             if r.line / 4 = line / 4 then { r with clean := r.clean && r.line != line, touched := line :: r.touched } else r),
           holding := x.holding.filter (fun h => h.1 != line) }

/-- Note how a line came to be poisoned, or forget it (Table 11-6, opcode 0x4300). -/
def State.notePoison (s : State) (line : Nat) (src : Option PoisonSrc) : State :=
  let rest := s.health.known.filter (fun e => e.1 != line)
  { s with health := { s.health with known := match src with | some x => rest ++ [(line, x)] | none => rest } }

/-- Commit a line on its owning slice (R129), with the counts of R524; a line of the poison list leaves it when written
whole without poison (R231); a line below an unverifiable node is committed poisoned (R352). -/
def State.commitLine (s : State) (k : SliceId) (issuer : Option Port) (line : Nat) (be : BitVec 64) (d : Line) (poison : Bool) : State :=
  let unver := (s.unverNode k line).isSome
  let inList := (s.slice k).front.poison.contains line
  let full := be = BitVec.allOnes 64
  if inList && !full then s
  else
    let pz := poison || unver
    -- a line committed after its channel became Exhausted (R251)
    let s := match s.lineHome line with
      | some (.at p, _) => if SMap.getD (s.slice k).media.health p.chan 0 = 4 && !(s.slice k).media.lateLines.contains line then
          s.updMedia k (fun m => { m with lateLines := line :: m.lateLines }) else s
      | _ => s
    let s := if unver && !poison then s.mediaRecord issuer (line * 64) k.val k.val 0 0 1 else s
    let s := if inList && !pz then s.updFront k (fun f => { f with poison := f.poison.filter (· != line) }) else s
    match (s.slice k).front.commit s.beat.salt s.beat.now line be d pz true with
    | none => s
    | some (f, how) =>
      let s := s.updFront k (fun _ => f)
      let s := s.updSlice k (·.overtake line)
      let s := if full && !pz then s.notePoison line none else s
      match how with
      | .newFrame ev => let s := s.count k 0x202; if ev then s.count k 0x203 else s
      | .newSpill => s.count k 0x204
      | _ => s

/-- A commit of a line would find a frame, a spill entry or a place in one. -/
def State.roomFor (s : State) (k : SliceId) (line : Nat) : Bool := ((s.slice k).front.commit s.beat.salt s.beat.now line 0 0 false true).isSome

/-- Commit a full line without allocating a spill entry (repairs, R289): false when no frame was found. -/
def State.commitRepair (s : State) (k : SliceId) (line : Nat) (d : Line) (poison : Bool) : State × Bool :=
  match (s.slice k).front.commit s.beat.salt s.beat.now line (BitVec.allOnes 64) d poison false with
  | none => (s, false)
  | some (f, how) =>
    let s := (s.updFront k (fun _ => f)).notePoison line (if poison then some .media else none)
    match how with
    | .newFrame ev => let s := s.count k 0x202; ((if ev then s.count k 0x203 else s), true)
    | _ => (s, true)

end Sys2Proof.Machine
end

