-- ==== Sys2Proof/Machine/Tables.lean ====
section
/-! DEFINITION. The media tables of a slice (block map, overlay, block-state records, map journal) and the raising of
channel requests (chapters 06 and 07). -/

namespace Sys2Proof.Machine

/-! ## Tables -/

/-- A block map entry never written: UNMAPPED. DRAIN_GEN starts one past BLOCK_GEN, so a first journal page applies (R224). -/
def MapEntry.blank : MapEntry := ⟨0, .unmapped, 0, 1, false⟩

/-- Block map entry of K: DEAD on a failed die (R247); an overflow block taken from a channel that held data starts LOST
(R98). -/
def Media.entry (m : Media) (key : Nat) : MapEntry :=
  let e := match SMap.get? m.bmap key with
    | some e => e
    | none =>
      if m.lostOver.any (fun r => decide (r.1 ≤ key % 1024 ∧ key % 1024 < r.2.1) && r.2.2.getLsbD (key / 2 ^ 17)) then
        { MapEntry.blank with st := .lost }
      else MapEntry.blank
  if m.deadDies.contains (key / 2 ^ 14) then { e with st := .dead } else e

/-- A block-state record never written. -/
def Block.blank : Block := ⟨0, 0, 0, .released, 0, 0, false, false, false, false, 0, false, 0⟩

/-- Key of a block-state record: channel, die, block (R220). -/
def blockKey (c d b : Nat) : Nat := (c * 8 + d) * 16384 + b

/-- A block-state record that no write has changed: retired with cause 7 on a failed die (R247). -/
def Media.freshBlock (m : Media) (cd : Nat) : Block :=
  if m.deadDies.contains cd then { Block.blank with use := .retired, cause := 7 } else Block.blank

/-- Block-state record. -/
def Media.block (m : Media) (c d b : Nat) : Block := SMap.getD m.blocks (blockKey c d b) (m.freshBlock (c * 8 + d))

/-- Retired blocks of a slice, each with its record: those that a record names, and the others of its failed dies. -/
def Media.retiredBlocks (m : Media) : List (Nat × Block) :=
  m.blocks.filter (fun b => b.2.use == .retired) ++ m.deadDies.flatMap (fun cd =>
    ((List.range 16384).filter (fun b => (SMap.get? m.blocks (cd * 16384 + b)).isNone)).map (fun b => (cd * 16384 + b, m.freshBlock cd)))

/-- Store a block-state record. -/
def Media.putBlock (m : Media) (c d b : Nat) (x : Block) : Media := { m with blocks := SMap.put m.blocks (blockKey c d b) x }

/-- A journal with no block. -/
def Journal.blank : Journal := ⟨[], 512, [], [], []⟩

/-- Journal of a die, by channel · 8 + die. -/
def Media.journal (m : Media) (cd : Nat) : Journal := SMap.getD m.journals cd Journal.blank

/-- Unwritten journal pages ahead of a die's head (R226): the rest of the head block and the ring blocks not yet written. -/
def Media.pagesAhead (m : Media) (cd : Nat) : Nat := let j := m.journal cd; 512 - j.headPage + 512 * j.ahead.length

/-- Append a map journal record to the buffer, then it takes effect (R232). -/
def Media.log (m : Media) (now : Nat) (r : MapRec) : Media :=
  { m with mapSeq := m.mapSeq + 1, buffer := m.buffer ++ [⟨m.mapSeq + 1, now, r⟩] }

/-- Set an overlay entry, recorded (R232). -/
def Media.setOverlay (m : Media) (now p : Nat) (e : OvEntry) : Media :=
  let m := m.log now (.overlaySet p e)
  { m with overlay := SMap.put m.overlay p e }

/-- Clear an overlay entry, recorded. -/
def Media.clearOverlay (m : Media) (now p : Nat) : Media :=
  let m := m.log now (.overlayClear p)
  { m with overlay := SMap.del m.overlay p }

/-- Set a block map entry, recorded. -/
def Media.setMap (m : Media) (now key : Nat) (e : MapEntry) : Media :=
  let m := m.log now (.mapEntry key e)
  { m with bmap := SMap.put m.bmap key e }

/-- Set a block-state record, recorded. -/
def Media.setBlock (m : Media) (now c d b : Nat) (x : Block) : Media :=
  (m.log now (.blockState c d b x)).putBlock c d b x

/-- Set of a page key in the overlay (R218). -/
def ovSet (p : Nat) : Nat := (p % 2 ^ 18) ^^^ (p / 2 ^ 18 % 2 ^ 13)

/-- The overlay has room for a page: it has an entry, or its set holds fewer than 8 (R218, R229). -/
def Media.ovRoom (m : Media) (p : Nat) : Bool :=
  (SMap.get? m.overlay p).isSome || decide ((m.overlay.filter (fun e => ovSet e.1 == ovSet p)).length < 8)

/-- Overlay entries of a logical block. -/
def Media.entriesOf (m : Media) (key : Nat) : List (Nat × OvEntry) := m.overlay.filter (fun e => decide (e.1 / 1024 = key))

/-- Release a block (R237 step 5): USE released, to be reset 16 beats later. -/
def Media.release (m : Media) (now c d b : Nat) : Media :=
  let x := m.block c d b
  (m.log now (.blockRelease c d b)).putBlock c d b { x with use := if x.use == .retired then .retired else .released, freed := now }

/-- Retire a block with a cause (R246). -/
def Media.retire (m : Media) (now c d b cause : Nat) : Media :=
  (m.log now (.blockRetire c d b cause)).putBlock c d b { m.block c d b with use := .retired, cause := cause }

/-- Ready block of the needed mode with the lowest RESET_COUNT in a bank, lowest number on ties (R253). -/
def Media.allocate (m : Media) (c d bank mode : Nat) (worn : Bool) : Option Nat :=
  (m.blocks.foldl (fun (acc : Option (Nat × Nat)) e =>
    let b := e.1 % 16384
    if e.1 / 16384 = c * 8 + d ∧ b % 16 = bank ∧ e.2.use = .ready ∧ e.2.mode = mode then
      match acc with
      | none => some (b, e.2.resets)
      | some (_, r) => if (if worn then decide (r < e.2.resets) else decide (e.2.resets < r)) then some (b, e.2.resets) else acc
    else acc) none).map (·.1)

/-! ## Table words (Tables 07-1 to 07-3) and map journal records (Table 07-6) -/

/-- STATE code of a block map entry. -/
def MapState.num : MapState → Nat
  | .unmapped => 0
  | .mapped => 1
  | .lost => 2
  | .dead => 3

/-- The 8 bytes of a block map entry (Table 07-1). -/
def MapEntry.word (e : MapEntry) : Nat :=
  e.phys + e.st.num * 2 ^ 16 + e.blockGen.toNat * 2 ^ 19 + e.drainGen.toNat * 2 ^ 35 + bitAt e.folding 51

/-- KIND code of an overlay entry. -/
def OvKind.num : OvKind → Nat
  | .block => 0
  | .zero => 1
  | .poison => 2

/-- The 8 bytes of an overlay entry of page key p (Table 07-2). -/
def OvEntry.word (p : Nat) (e : OvEntry) : Nat :=
  1 + p / 2 ^ 18 % 2 ^ 13 * 2 + e.jblock * 2 ^ 14 + e.jpage * 2 ^ 28 + e.sectors.toNat * 2 ^ 37 + e.kind.num * 2 ^ 53 + bitAt e.captured 55

/-- USE code of a block-state record. -/
def Use.num : Use → Nat
  | .released => 0
  | .ready => 1
  | .data => 2
  | .journal => 3
  | .openFold => 4
  | .reserved => 5
  | .retired => 6

/-- The 16 bytes of a block-state record (Table 07-3). -/
def Block.bytes (x : Block) : List Byte :=
  leBytes 6 x.beat.toNat ++ leBytes 1 (x.tempMax + x.mode * 8 + x.use.num * 32) ++ leBytes 3 x.reads ++ leBytes 3 x.resets ++
    leBytes 2 (bitAt x.suspect 0 + bitAt x.aborted 1 + bitAt x.factoryBad 2 + bitAt x.refresh 3) ++ leBytes 1 x.cause

/-- TYPE and payload of a map journal record, in the order of Table 07-6. The widths of the payload's fields are open: a number of a block, a
page key and K take 4 bytes, a channel and a die 1 each, an index entry 8 (DESIGN CHOICE; log entry 73). -/
def MapRec.body : MapRec → Nat × List Byte
  | .foldOpen key blk gen seq => (0x01, leBytes 4 key ++ leBytes 4 blk ++ leBytes 2 gen.toNat ++ leBytes 6 seq.toNat)
  | .foldCommit key blk old gen beat => (0x02, leBytes 4 key ++ leBytes 4 blk ++ leBytes 4 old ++ leBytes 2 gen.toNat ++ leBytes 6 beat.toNat)
  | .foldAbandon key blk => (0x03, leBytes 4 key ++ leBytes 4 blk)
  | .blockRelease c d b => (0x04, leBytes 1 c ++ leBytes 1 d ++ leBytes 4 b)
  | .blockState c d b st => (0x05, leBytes 1 c ++ leBytes 1 d ++ leBytes 4 b ++ st.bytes)
  | .blockRetire c d b cause => (0x06, leBytes 1 c ++ leBytes 1 d ++ leBytes 4 b ++ leBytes 1 cause)
  | .overlaySet p e => (0x07, leBytes 4 p ++ leBytes 8 (e.word p))
  | .overlayClear p => (0x08, leBytes 4 p)
  | .mapEntry key e => (0x09, leBytes 4 key ++ leBytes 8 e.word)
  | .linePoison p mask => (0x0A, leBytes 4 p ++ leBytes 8 mask.toNat)
  | .region r d ix born gen => (0x0B, leBytes 4 r ++ (descBytes r d).take 28 ++ leBytes 4 gen.toNat ++ leBytes 8 born.toNat ++ (descBytes r d).drop 40 ++
      ix.flatMap (fun e => leBytes 4 e.1 ++ leBytes 4 e.2))
  | .ring cd b join => (0x0C, leBytes 1 cd ++ leBytes 4 b ++ leBytes 1 (bitAt join 0))
  | .checkpoint area seq => (0x0D, leBytes 1 (bitAt area 0) ++ leBytes 8 seq)

/-- The bytes of a map journal record: a 16-byte header with its CRC-32C, and the payload, zeros to a multiple of 8 (R232). -/
def MapLog.bytes (r : MapLog) : List Byte :=
  let (ty, pl) := r.rec'.body
  let n := ceilDiv (16 + pl.length) 8
  let head := leBytes 1 ty ++ leBytes 1 n ++ leBytes 2 0 ++ leBytes 8 r.seq
  let body := pl ++ leBytes (8 * n - 16 - pl.length) 0
  head ++ leBytes 4 (crc32c (head ++ leBytes 4 0 ++ body)) ++ body

/-- A word of the block map, the overlay, the block-state records or the free lists, from an area of Table 04-2 and the offset in it; none where a table lists
nothing there. An overlay set lists its entries by page key (DESIGN CHOICE; log entry 69). -/
def tableEntry (bmap : SMap MapEntry) (overlay : SMap OvEntry) (blocks : SMap Block) : SramArea × Nat → Option (BitVec 64)
  | (.blockMap, o) => (SMap.get? bmap (o / 8)).map (fun e => BitVec.ofNat 64 e.word)
  | (.overlay, o) => ((overlay.filter (fun e => ovSet e.1 = o / 64))[o / 8 % 8]?).map (fun e => BitVec.ofNat 64 (e.2.word e.1))
  | (.blockStates, o) => (SMap.get? blocks (o / 16)).map (fun b => wordAt b.bytes (o / 8 % 2))
  | (.freeLists, o) => some (Config.freeListWord ((blocks.filter (fun b => b.2.use == .ready || b.2.use == .released)).map (·.1)) (o / 8))
  | _ => none

/-! ## Lines marked poisoned (R231) -/

/-- Lines of a page with a LINE_POISON record that no drain has carried out yet. -/
def Media.marks (m : Media) (pk : Nat) : BitVec 64 := SMap.getD m.psnMarks pk 0

/-- The marks of a page become `mask`, recorded: the record's mask is absolute, and 0 ends the page's marks (DESIGN CHOICE: R231 does not say how a later start
tells a record whose lines have been drained; log entry 94). -/
def Media.setMarks (m : Media) (now pk : Nat) (mask : BitVec 64) : Media :=
  let m := m.log now (.linePoison pk mask)
  { m with psnMarks := if mask = 0 then SMap.del m.psnMarks pk else SMap.put m.psnMarks pk mask }

/-- Lines of a page are marked poisoned. A drain of the page under way took them before, so it does not carry the mark out. -/
def Media.markPoison (m : Media) (now pk : Nat) (mask : BitVec 64) : Media :=
  let m := m.setMarks now pk (m.marks pk ||| mask)
  { m with drains := m.drains.map (fun d => if d.key = pk then { d with psn := d.psn &&& ~~~mask } else d) }

/-- The marks of some lines of a page end: their copy is durable, or the lines are gone. -/
def Media.unmark (m : Media) (now pk : Nat) (mask : BitVec 64) : Media :=
  if m.marks pk &&& mask = 0 then m else m.setMarks now pk (m.marks pk &&& ~~~mask)

/-- Every mark of some pages ends. -/
def Media.unmarkAll (m : Media) (now : Nat) (p : Nat → Bool) : Media := (m.psnMarks.filter (fun e => p e.1)).foldl (fun m e => m.setMarks now e.1 0) m

/-! ## Where a line is read from (R217, R219) -/

/-- Source of a line on the medium. -/
inductive Source where
  | zero
  | poison
  | media (oneBit : Bool) (block page : Nat)
deriving DecidableEq, Repr

/-- resolve() of R219; `captured` restricts it to entries taken into an open fold (R237). -/
def Media.resolve (m : Media) (p sector : Nat) (captured : Bool) : Source :=
  let base := fun (_ : Unit) =>
    let e := m.entry (p / 1024)
    match e.st with
    | .unmapped => Source.zero
    | .mapped => Source.media false e.phys (p % 1024)
    | .lost => Source.poison
    | .dead => Source.poison
  match SMap.get? m.overlay p with
  | none => base ()
  | some e =>
    if captured && !e.captured then base ()
    else if e.sectors.getLsbD sector then .media true e.jblock e.jpage
    else match e.kind with
      | .zero => .zero
      | .poison => .poison
      | .block => base ()

/-- Ask for the collection of a journal block. -/
def Media.askCollect (m : Media) (cd b : Nat) : Media := if m.collect.contains (cd, b) then m else { m with collect := m.collect ++ [(cd, b)] }

/-- Count sector reads of a block (R244): each 1, or 2 while the die is in T3 or T4; at the limit of its mode the block gets REFRESH, and a journal
block is collected. -/
def State.bumpRead (s : State) (k : SliceId) (j : ChanId) (d b reads : Nat) : State :=
  let m := (s.slice k).media
  let s := s.count k 0x300 reads
  match SMap.get? m.blocks (blockKey j.val d b) with
  | none => s
  | some x =>
    let band := ((s.chan k j).dies[d]?).map (·.band) |>.getD 4
    let n := min (x.reads + reads * (if 3 ≤ band then 2 else 1)) (2 ^ 24 - 1)
    let full := decide ((if x.mode = 2 then 2 ^ 22 else 2 ^ 20) ≤ n)
    s.updMedia k (fun m =>
      let m := m.setBlock s.beat.events j.val d b { x with reads := n, refresh := x.refresh || full }
      if full && x.use == .journal then m.askCollect (j.val * 8 + d) b else m)

/-- Ask for a refresh of a block: REFRESH for a 2-bit block, collection for a journal block (R245, R289). -/
def State.wantRefresh (s : State) (k : SliceId) (j d b : Nat) : State :=
  s.updMedia k (fun m =>
    let x := m.block j d b
    if x.mode = 2 then m.askCollect (j * 8 + d) b
    else if x.refresh then m else m.setBlock s.beat.events j d b { x with refresh := true })

/-! ## Channel requests (R190, R192) -/

/-- Index of a requester in tables. -/
def Rq.ix : Rq → Fin 6
  | .fr => 0
  | .fw => 1
  | .fd => 2
  | .sc => 3
  | .cb => 4
  | .mx => 5

/-- A request with no burst from the device. -/
def ChReq.plain (rq : Rq) (sq : SeqK) (die : DieId) (block page sector : Nat) (first : BitVec 2) (ts : Nat) (work : Work) (expiry : Nat) (mandatory : Bool) : ChReq :=
  ⟨rq, sq, die, block, page, sector, first, ts, [], work, expiry, mandatory⟩

/-- Raise a request on a channel. -/
def State.pushReq (s : State) (k : SliceId) (j : ChanId) (r : ChReq) : State :=
  s.updChan k j (fun c => { c with arb := { c.arb with queue := c.arb.queue ++ [r] } })

/-- No request of some work is queued, chosen or in tenure on a channel. -/
def Chan.workDone (c : Chan) (w : Work) : Bool :=
  !(c.arb.queue.any (fun r => r.work == w)) && (match c.arb.chosen with | some r => r.work != w | none => true) &&
    (match c.arb.owner with | some t => t.req.work != w | none => true) &&
    c.arb.tail.all (fun t => t.req.work != w)

/-- Tenures in force on a channel, oldest first. -/
def Chan.tenures (c : Chan) : List Tenure := c.arb.tail ++ c.arb.owner.toList

/-- Change every tenure in force. -/
def Chan.mapTenures (c : Chan) (f : Tenure → Tenure) : Chan := { c with arb := { c.arb with owner := c.arb.owner.map f, tail := c.arb.tail.map f } }

/-- Set or clear a bank's operation. -/
def State.setBank (s : State) (k : SliceId) (j : ChanId) (d : DieId) (b : Nat) (x : Option BankSt) : State :=
  s.updChan k j (·.updDie d (fun die => { die with banks := match x with | some v => SMap.put die.banks b v | none => SMap.del die.banks b }))

/-- A foreground read holds a bank: its burst has not begun, or its retry point is open (R207, R208). -/
def Chan.readHolds (c : Chan) (d : DieId) (b : Nat) : Bool :=
  c.tenures.any (fun t => t.req.rq == .fr && t.req.die == d && t.req.block % 16 == b && (!t.begun || t.retry))

/-- Withdraw the requests of some work that have not been granted. -/
def State.dropWork (s : State) (k : SliceId) (j : ChanId) (w : Work) : State :=
  s.updChan k j (fun c => { c with arb := { c.arb with
    queue := c.arb.queue.filter (fun r => r.work != w),
    chosen := match c.arb.chosen with | some r => if r.work == w then none else some r | none => none } })

/-- Fin 16 from a number. -/
def ch16 (n : Nat) : Fin 16 := ⟨n % 16, Nat.mod_lt _ (by decide)⟩
/-- Fin 8 from a number. -/
def fin8 (n : Nat) : Fin 8 := ⟨n % 8, Nat.mod_lt _ (by decide)⟩

/-- Keep a slot in the record of the last 64, with the request that it serves (Table 05-14). -/
def Chan.keepSlot (c : Chan) (w : BitVec 48) (r : Option ChReq) : Chan := { c with slots := ((w, r) :: c.slots).take 64 }

/-- Dies of a channel (R173): the count recorded, or before the first inventory those that have answered READ_ID. -/
def State.chanDies (s : State) (k : SliceId) (j : ChanId) : Nat := if s.dies = 0 then ((s.chan k j).dies.toList.filter (·.present)).length else s.dies

/-- Emit a slot on CA under the chip-select of a die's group (R173), and keep it. -/
def State.sendSlot (s : State) (k : SliceId) (j : ChanId) (d : DieId) (w : BitVec 48) (r : Option ChReq) : State :=
  (s.updChan k j (·.keepSlot w r)).emit (.slot k j (chipSelect (s.chanDies k j) d.val) w)

/-- Emit a broadcast slot: both chip-selects high (R173). -/
def State.broadcast (s : State) (k : SliceId) (j : ChanId) (w : BitVec 48) : State :=
  (s.updChan k j (·.keepSlot w none)).emit (.slot k j chipAll w)

/-- The channel controller's time has come to `now`. -/
def Chan.tick (c : Chan) (now : Nat) : Chan := { c with now := max c.now now }

/-- The time that a bank's operation has spent paused within the last 4 µs, quarter nanoseconds (R208). -/
def BankSt.pausedFor (x : BankSt) (now : Nat) : Nat :=
  (x.pauses ++ (if x.paused then [(x.since, now)] else [])).foldl (fun n p => n + (min p.2 now - max p.1 (now - 16000))) 0

/-- A bank's operation goes on: its pause has ended, in its run window or not (R207, R208). -/
def BankSt.resume (x : BankSt) (now : Nat) (window : Bool) : BankSt :=
  { x with paused := false, window := window, due := false, since := now, pauses := x.pauses.filter (fun p => decide (now < p.2 + 16000)) ++ [(x.since, now)] }

/-- Resume a paused bank into its run window (R208). -/
def State.openWindow (s : State) (k : SliceId) (j : ChanId) (d : DieId) (b : Nat) (x : BankSt) : State :=
  (s.setBank k j d b (some (x.resume (s.chan k j).now true))).sendSlot k j d (slotBank 0x0A d.val b) none

/-- RESUME slots that were due and waited for a read of their bank go out (R208). -/
def State.resumeDue (s : State) (k : SliceId) (j : ChanId) : State :=
  let c := s.chan k j
  (List.finRange 8).foldl (fun s d => ((c.dies[d]).banks).foldl (fun s b =>
    if b.2.due && b.2.paused && !c.readHolds d b.1 && !c.retraining then s.openWindow k j d b.1 b.2 else s) s) s

/-- The channel issues commands to a die: it is up, not retraining (R188), and the die has not failed (R187). -/
def Chan.talks (c : Chan) (d : DieId) : Bool := c.up && !c.retraining && !(c.dies[d]).failed

/-- Load one threshold set of a die: outside any grant (R172, R191). A retrain loads every set when it ends (R181 step 11). -/
def State.loadTs (s : State) (k : SliceId) (j : ChanId) (d : DieId) (set : Nat) (off : BitVec 24) : State :=
  if (s.chan k j).talks d then
    (s.updChan k j (·.updDie d (fun x => { x with sets := SMap.put x.sets set off }))).sendSlot k j d (slotLoadTs d.val set off) none
  else s

/-! ## The Lens (R280–R283) -/

/-- Key of a Lens entry: channel·8+die, mode, age band, temperature band. -/
def lensKey (cd : Nat) (oneBit : Bool) (a t : Nat) : Nat := ((cd * 2 + (if oneBit then 1 else 0)) * 12 + a) * 5 + t

/-- Revision of a die, by channel · 8 + die, as its READ_ID response gave it; 0 before one came. -/
def Slice.dieRev (x : Slice) (cd : Nat) : BitVec 8 := ((x.chans[ch16 (cd / 8)]).dies[fin8 cd]).ident.elim 0 (·.rev)

/-- Image held in a firmware area; none: erased or invalid. -/
def Firm.area (f : Firm) (a : Fin 2) : Option (List Byte) := if a = 0 then f.area0 else f.area1

/-- The active firmware image. -/
def State.activeImage (s : State) : List Byte := (s.firm.area s.firm.running).getD []

/-- The dies found at step 09 that have no Lens yet, after a cold or slice reset, take the defaults of the active image (R281). -/
def State.lensDefaults (s : State) (k : SliceId) : State :=
  let img := s.activeImage
  s.updSlice k (fun x => { x with lensImages := (List.range 128).foldl (fun l cd =>
    if ((x.chans[ch16 (cd / 8)]).dies[fin8 cd]).present && (SMap.get? l cd).isNone then SMap.put l cd img else l) x.lensImages })

/-- Lens entry as held; an entry not measured since the defaults were taken reads its default for the die's revision, with COUNT 0, from the image that was the
active one then (R281). -/
def Slice.lensEntry (x : Slice) (cd : Nat) (oneBit : Bool) (a t : Nat) : BitVec 64 :=
  let v := fun (i : Nat) => (Config.lensDefault (SMap.getD x.lensImages cd []) (x.dieRev cd) oneBit a t i).setWidth 64
  (SMap.get? x.lens (lensKey cd oneBit a t)).getD (v 0 ||| (v 1 <<< 12) ||| (v 2 <<< 24))

/-- V of threshold i of an entry (Table 08-6). -/
def lensV (e : BitVec 64) (i : Nat) : Int := (e.extractLsb' (12 * i) 12).toInt

/-- COUNT of an entry. -/
def lensCount (e : BitVec 64) : Nat := (e.extractLsb' 36 8).toNat

/-- V / 16 rounded half away from zero (R282). -/
def lensRound (v : Int) : Int := if 0 ≤ v then (v + 8) / 16 else -((-v + 8) / 16)

/-- The three offsets loaded for an entry. -/
def lensOffsets (e : BitVec 64) : BitVec 24 :=
  BitVec.ofNat 24 ((List.range 3).foldl (fun n i => n + deg8 (lensRound (lensV e i)) * 2 ^ (8 * i)) 0)

/-- One refined V (R283): division truncates toward zero. -/
def refineV (v target : Int) (count : Nat) : Int :=
  let step := (target - v).tdiv (if count < 8 then (count + 1 : Int) else 8)
  max (-2048) (min 2032 (v + step))

/-- Refine an entry with measured offsets (R283). -/
def refineEntry (e : BitVec 64) (oneBit : Bool) (m : BitVec 24) : BitVec 64 :=
  let n := if oneBit then 1 else 3
  let vs := (List.range 3).map (fun i =>
    if i < n then refineV (lensV e i) (16 * (m.extractLsb' (8 * i) 8).toInt) (lensCount e) else lensV e i)
  let c := min (lensCount e + 1) 255
  BitVec.ofNat 64 ((vs.getD 0 0 % 4096).toNat + (vs.getD 1 0 % 4096).toNat * 2 ^ 12 + (vs.getD 2 0 % 4096).toNat * 2 ^ 24 + c * 2 ^ 36)

/-- A measured read of a trusted block refines its entry and reloads the set when it changed (R283). -/
def State.refine (s : State) (k : SliceId) (j : ChanId) (d : DieId) (b : Block) (m : BitVec 24) : State :=
  if !s.trusted b then s
  else
    let oneBit := decide (b.mode = 2)
    let a := s.effBand b
    let die := (s.chan k j).dies[d]
    let cd := j.val * 8 + d.val
    let e := (s.slice k).lensEntry cd oneBit a die.band
    let e' := refineEntry e oneBit m
    let s := s.updSlice k (fun x => { x with lens := SMap.put x.lens (lensKey cd oneBit a die.band) e' })
    let s := s.count k 0x309
    let set := a + (if oneBit then 16 else 0)
    if SMap.getD die.sets set 0 = lensOffsets e' then s else (s.loadTs k j d set (lensOffsets e')).count k 0x308

/-- Load the sets that the Lens does not give with zero: the reserved TS15, and the scratch sets until a read uses them (Table 05-4; zero for the
scratch sets is a DESIGN CHOICE, log entry 75). -/
def State.loadPlain (s : State) (k : SliceId) (j : ChanId) (d : DieId) : State :=
  [12, 13, 14, 15, 28, 29, 30].foldl (fun s n => s.loadTs k j d n 0) s

/-- Load every Lens set of a die for its temperature band (R172, Table 05-4). -/
def State.loadLens (s : State) (k : SliceId) (j : ChanId) (d : DieId) : State :=
  let band := ((s.chan k j).dies[d]).band
  (List.range 12).foldl (fun s a =>
    let x := s.slice k
    let s := s.loadTs k j d a (lensOffsets (x.lensEntry (j.val * 8 + d.val) false a band))
    s.loadTs k j d (a + 16) (lensOffsets (x.lensEntry (j.val * 8 + d.val) true a band))) s

end Sys2Proof.Machine
end

