-- ==== Sys2Proof/Machine/RegionLog.lean ====
section
/-! DEFINITION. The map journal ring in the reserved area, the REGION records that go straight to it, and the changes of a region's descriptor (R86, R87,
R222, R232, R233, R437). -/

namespace Sys2Proof.Machine

/-! ## The ring (R222, R233) -/

/-- The 320 bytes of a sector from its four codewords. -/
def sectorBytes (cws : List (BitVec 640)) : List Byte := cws.flatMap (fun c => leBytes 80 c.toNat)

/-- Append records to one copy of the ring (R233): a CHECKPOINT record makes its checkpoint valid, and the records that it covers go; the region
table is in no checkpoint, so REGION records stay. -/
def ringAppend (ring rs : List MapLog) : List MapLog :=
  rs.foldl (fun l r => match r.rec' with
    | .checkpoint _ seq => (l.filter (fun x => (match x.rec' with | .region _ _ _ _ _ => true | _ => false) || decide (seq < x.seq))) ++ [r]
    | _ => l ++ [r]) ring

/-- Bytes of some records. -/
def recBytes (rs : List MapLog) : Nat := rs.foldl (fun n r => n + r.bytes.length) 0

/-- Bytes of the ring since the last checkpoint: of its fuller copy. -/
def Media.ringBytes (m : Media) : Nat := max (recBytes m.ring) (recBytes m.ringB)

/-- Blocks of the reserved area of a die 0, in the order of their numbers: checkpoints A and B, the ring, and the rest (R222; the area's own numbering is
open: DESIGN CHOICE, log entry 80). -/
def Media.areaBlocks (m : Media) (j : Nat) : List Nat := (m.blocks.filter (fun e => decide (e.1 / 16384 = j * 8) && e.2.use == .reserved)).map (·.1 % 16384)

/-- Blocks of the map journal ring. -/
def Media.ringBlocks (m : Media) (j : Nat) : List Nat := ((m.areaBlocks j).drop 68).take 64

/-- Blocks of checkpoint area A (`true`) or B. -/
def Media.ckptBlocks (m : Media) (j : Nat) (area : Bool) : List Nat := ((m.areaBlocks j).drop (if area then 0 else 34)).take 34

/-- The channels that hold the two copies of the reserved area. -/
def areaChans : List ChanId := [0, 8]

/-- A copy of the reserved area can be written: its channel and its die serve. -/
def State.areaUp (s : State) (k : SliceId) (j : ChanId) : Bool := (s.chan k j).up && !((s.chan k j).dies[(0 : DieId)]).failed

/-- A sector of the reserved area as FW writes it: its bytes are the DATA of four codewords, whose MAC is open (log entry 80). -/
def areaSector (bytes : List Byte) (mac : BitVec 56) : List Byte :=
  sectorBytes ((List.range 4).map (fun c => cwEncode (cwInfo (BitVec.ofNat 512 (field bytes (64 * c) 64)) mac 0 false)))

/-- Raise the FW writes of one ring copy for some records: the sectors that they reach, from the one that the ring's end lies in, and the tag of a page
whose last sector is among them (R223, R233). -/
def State.raiseRing (s : State) (k : SliceId) (j : ChanId) (ring rs : List MapLog) (mac : BitVec 56) (mand : Bool) : State :=
  let bl := (s.slice k).media.ringBlocks j.val
  if bl.isEmpty then s
  else
    let old := ring.flatMap (·.bytes)
    let from' := old.length / 256
    let bytes := old.drop (256 * from') ++ rs.flatMap (·.bytes)
    (List.range (ceilDiv bytes.length 256)).foldl (fun s i =>
      let n := from' + i
      let blk := bl.getD (n / 8192 % 64) 0
      let page := n / 16 % 512
      let s := s.pushReq k j ⟨.fw, .write1, 0, blk, page, n % 16, 0, 0, areaSector (bytes.drop (256 * i)) mac, .mapCopy, 0, mand⟩
      if n % 16 = 15 then s.pushReq k j ⟨.fw, .writeTag, 0, blk, page, 0, 0, 0, tagContents 0x1E 0 (n / 16) 0 0 0 0 0, .mapCopy, 0, mand⟩ else s) s

/-- The records of a ring copy whose writes are under way are raised, with others behind them. -/
def State.raiseBehind (s : State) (k : SliceId) (j : ChanId) (ring rs : List MapLog) (flying : Nat) (mac : BitVec 56) (mand : Bool) : State :=
  s.raiseRing k j (ring.take (ring.length - flying)) (ring.drop (ring.length - flying) ++ rs) mac mand

/-- A REGION record goes to both ring copies, behind every record still in the buffer, so that the ring keeps MAP_SEQ order, before the command that made it
completes (R437): their FW writes are raised as mandatory work, and in the model the command does not wait for their grants (DESIGN CHOICE; log entry 80). With
neither copy to write to, the record stays in the buffer. -/
def State.logRegion (s : State) (k : SliceId) (r : Nat) (d : Option Desc) (ix : List (Nat × Nat)) (born : BitVec 64) (gen : BitVec 32) : State :=
  let m := (s.slice k).media
  let rs := m.buffer ++ [⟨m.mapSeq + 1, s.beat.events, .region r d ix born gen⟩]
  let a := s.areaUp k 0
  let b := s.areaUp k 8
  if !(a || b) then s.updMedia k (·.log s.beat.events (.region r d ix born gen))
  else
    let (n, s) := s.draw
    let mac := Config.freeValue n 56
    let put := fun (s : State) (j : ChanId) (ring : List MapLog) => (s.dropWork k j .mapCopy).raiseBehind k j ring rs m.flying mac true
    let s := if a then put s 0 m.ring else s
    let s := if b then put s 8 m.ringB else s
    s.updMedia k (fun m => { m with
      mapSeq := m.mapSeq + 1
      buffer := []
      copying := 0
      copyDue := false
      flying := m.flying + rs.length
      ring := if a then ringAppend m.ring rs else m.ring
      ringB := if b then ringAppend m.ringB rs else m.ringB })

/-! ## Descriptor changes (R86, R87) -/

/-- Apply a descriptor change on every present slice (R87): write it to every table, invalidate the region, refill an entry that was pinned
and load one that becomes pinned (R102), and record REGION in every slice's map journal (R86, R232, R437). -/
def State.applyDesc (s : State) (r : Nat) (d : Option Desc) : State :=
  let (born, gen) := match d, SMap.get? s.desc r with
    | some d, _ => (d.beat, d.gen)
    | none, some old => (old.beat, old.gen + 1)
    | none, none => (0, 0)
  let s := { s with desc := match d with | some d => SMap.put s.desc r d | none => SMap.del s.desc r }
  let ix := if d.isSome then (s.index.filter (fun e => e.2.region = r)).map (fun e => (e.1, e.2.unitBase)) else []
  (s.sliceIds.filter (fun k => (s.slice k).st != .lost)).foldl (fun s k => (s.updSlice k (fun x =>
    let was := x.cache.any (fun e => e.2.region == r && e.2.pinned) || x.fill.any (fun f => f.refill && f.region == r) || x.refills.contains r
    let x : Slice := x.cacheInvalidate r
    match d with
      | some d => if d.pin && x.cacheOn && x.st == .working then (if was then x.startFill r (some d) true else x.cacheLoad x.cacheVictim r (some d)) else x
      | none => x)).logRegion k r d ix born gen) s

/-- A region has lines on a slice. -/
def Desc.uses (d : Desc) (k : SliceId) : Bool := d.spread || d.localSlice.toNat == k.val

/-- Change a descriptor, GENERATION rising by one (Table 03-2). -/
def State.modDesc (s : State) (r : Nat) (f : Desc → Desc) : State :=
  match SMap.get? s.desc r with
  | none => s
  | some d => s.applyDesc r (some { f d with gen := d.gen + 1 })

/-- Write a descriptor field that changes no GENERATION (REKEY_PTR, R103): table and resident entries together, recorded as any change of
a descriptor (R232, R348). -/
def State.pokeDesc (s : State) (r : Nat) (f : Desc → Desc) : State :=
  match SMap.get? s.desc r with
  | none => s
  | some d =>
    let s := { s with desc := SMap.put s.desc r (f d) }
    let ix := (s.index.filter (fun e => e.2.region = r)).map (fun e => (e.1, e.2.unitBase))
    (s.sliceIds.filter (fun k => (s.slice k).st != .lost)).foldl (fun s k => (s.updSlice k (fun x => { x with
      cache := if x.cacheOn then x.cache.map (fun e => if e.2.region = r then (e.1, { e.2 with desc := e.2.desc.map f }) else e) else x.cache })).logRegion
        k r (some (f d)) ix d.beat d.gen) s

end Sys2Proof.Machine
end

