-- ==== Sys2Proof/Machine/Reads.lean ====
section
/-! DEFINITION. Media reads: raising them, checking what comes back, climbing the ladder, completing, filling and
repairing (R132–R138, R285–R289, R319–R333, R345, R350–R352). -/

namespace Sys2Proof.Machine

/-! ## Completions -/

/-- Complete a CXL.mem request with data or poison within a bound in ps; a completion discarded by a port reset is not
sent (R76). -/
def State.completeCxl (s : State) (r : Req) (data : Line) (poison : Bool) (bound : Nat) : State :=
  if (s.head r.port).inflight.contains r.id then
    let s := (s.updHead r.port (fun h => { h with inflight := h.inflight.filter (· != r.id) })).updWithheld
    let s := if !r.write && poison then (s.count r.port 0x103).addError 5 else s
    s.emit (.cxl r.port r.id r.write data poison (s.devLoad r.port) (s.head r.port).viral (bound + r.extra))
  else s

/-- A request ordered through the port's own slice is local. -/
def boundFor (r : Req) (k : SliceId) (loc far : Nat) : Nat := if r.port = k then loc else far

/-! ## Versions and checks -/

/-- A tree node as the front store holds it: every word written and none poisoned (R110, R111). -/
def State.nodeLine (s : State) (k : SliceId) (level idx : Nat) : Option Line :=
  match (s.slice k).front.look (treeLine k.val level idx) with
  | .full x _ _ => if x.poisoned || x.vld != 0xFF then none else some x.read
  | _ => none

/-- Entry e of a node of 64-bit entries (Table 10-5). -/
def nodeEntry (n : Line) (e : Nat) : BitVec 64 := n.extractLsb' (64 * e) 64

/-- Minor of line i in a leaf (Table 10-5). -/
def leafMinor (n : Line) (i : Nat) : Nat := (n.extractLsb' (8 * i) 8).toNat

/-- Seal index of a data line of a Sealed region. -/
def State.lineSeal (s : State) (line : Nat) : Option Nat :=
  match s.regionAt (line * 64) with
  | some (_, d, u) => if d.mode == .sealed then s.sealOf d (line * 64) u else none
  | none => none

/-- Major and minor the tree gives a Sealed line; none while a node is not held (R332). -/
def State.sealedVersion (s : State) (k : SliceId) (line : Nat) : Option (Nat × Nat) :=
  match s.lineSeal line with
  | none => none
  | some i =>
    match s.nodeLine k 0 i, s.nodeLine k 1 (i / 8) with
    | some leaf, some par => some ((nodeEntry par (i % 8)).toNat % 2 ^ 40, leafMinor leaf (line % 64))
    | _, _ => none

/-- Keys that apply to a line of a region: identifier, data key, MAC key (R321, R346). -/
def State.lineKeys (s : State) (d : Desc) : List (Nat × BitVec 512 × BitVec 256) :=
  if d.mode == .clear then [(0, 0, checkKeyOf s.fused.rootKey)]
  else
    let ids := if d.st == .rekeying then [d.keyId, d.newKey] else [d.keyId]
    ids.filterMap (fun n => (SMap.get? s.keys n).map (fun k => (n, k.key, k.mac)))

/-- What the check of a corrected codeword says (R324, R346, R350). -/
inductive Verdict where
  | ok (data : Line) (poison : Bool) (newKey : Bool)
  /-- treated as a failed decode -/
  | ladder
  /-- data error of a Clear line -/
  | dataError
  /-- failed check with its alarm cause -/
  | alarm (cause : Nat)
deriving DecidableEq, Repr

/-- Check and decrypt a corrected codeword of a data line; `ver` gives the versions of a Sealed line by its nodes. A Sealed codeword whose MINOR differs and whose
tag fails too is a replay, cause 2: the MINOR is compared first (DESIGN CHOICE: Table 10-8 gives no order; log entry 99). -/
def State.checkLine (s : State) (d : Desc) (line : Nat) (info : BitVec 580) (n : Nat) (ver : Option (Nat × Nat)) : Verdict :=
  match (if d.mode == .sealed then ver else some (0, (infoMinor info).toNat)) with
  | none => .ladder
  | some (major, minor) =>
    if d.mode == .sealed && minor != (infoMinor info).toNat then (if 4 ≤ n then .ladder else .alarm 2)
    else
      match (s.lineKeys d).find? (fun kk =>
        lineTag kk.2.2 (infoData info) line major minor (infoPoison info) kk.1 d.mode.num == infoMac info) with
      | some (id, key, _) =>
        let data := if d.mode == .clear then infoData info else xtsLine true key (xtsTweak line minor major) (infoData info)
        .ok data (infoPoison info) (d.st == .rekeying && id == d.newKey)
      | none => if 4 ≤ n then .ladder else if d.mode == .clear then .dataError else .alarm 1

/-- Parent counter of a node: entry of its leaf-parent, of a pinned node, or of the root (R327). -/
def State.parentCount (s : State) (k : SliceId) (level idx : Nat) : BitVec 64 :=
  if level = 0 then ((s.nodeLine k 1 (idx / 8)).map (fun n => nodeEntry n (idx % 8))).getD 0
  else if level = 8 then ((s.slice k).tree.root[idx]?).getD 0
  else nodeEntry (SMap.getD (s.slice k).tree.pinned ((level + 1) * 2 ^ 26 + idx / 8) 0) (idx % 8)

/-- A node matches a counter of its parent (R328, R332); a poisoned codeword holds none. -/
def State.nodeOk (s : State) (k : SliceId) (level idx : Nat) (parent : BitVec 64) (info : BitVec 580) : Bool :=
  nodeTag (treeKeyOf s.fused.rootKey k) (infoData info) level idx parent k == infoMac info && !infoPoison info

/-- A Sealed region whose slice can vouch for none of its lines (R352, R353): Unavailable with UNAVAIL_CAUSE 1, a running discard ending there; one that has lost
its key stays so. -/
def Desc.rootGone (d : Desc) : Desc :=
  if d.st == .unavailable && d.cause == 3 then d else { d with st := .unavailable, back := if d.st == .discarding then .unavailable else d.back, cause := 1 }

/-- Every Sealed region of a slice becomes Unavailable. -/
def State.rootsGone (s : State) (k : SliceId) : State :=
  (s.desc.filter (fun e => e.2.mode == .sealed && e.2.uses k)).foldl (fun s e => if e.2.rootGone != e.2 then s.modDesc e.1 Desc.rootGone else s) s

/-- Enter a node in the unverifiable list (R352); a 257th entry makes every Sealed region of the slice Unavailable. -/
def State.addUnver (s : State) (k : SliceId) (level idx : Nat) : State :=
  let t := (s.slice k).tree
  if t.unver.contains (level, idx) then s
  else if t.unver.length < 256 then s.updSlice k (fun x => { x with tree := { x.tree with
    unver := x.tree.unver ++ [(level, idx)]
    suspect := x.tree.suspect.filter (· != (level, idx)) } })
  else s.rootsGone k

/-! ## Raising reads -/

/-- Source of any line on its owning slice. -/
def State.lineSource (s : State) (k : SliceId) (line : Nat) : Option (Home × Source) :=
  (s.lineHome line).map (fun h =>
    match h.1 with
    | .at p => (h.1, (s.slice k).media.resolve p.pageKey (h.2 / 4) false)
    | .nowhere => (h.1, .poison)
    | .dead _ => (h.1, .poison))

/-- Class bound of a media read in ps: Fast 480 ns, Sealed with a node to fetch 900 ns, Patient or untrusted 4 µs (Table 00-3, R288, R333). -/
def classBound (patient trusted missed : Bool) : Nat := if patient || !trusted then 4000000 else if missed then 900000 else 480000

/-- Bound of a media read. -/
def MediaRead.bound (rd : MediaRead) : Nat := classBound rd.desc.patient rd.trusted rd.missed

/-- Requester of a read's present step: steps 0 to 2 of a foreground read are FR, deep recovery is MX (R285, Table 08-7); the journal writer and
the fold engine hold no READ_SOFT, so their ladders end under MX too (Table 06-1). -/
def MediaRead.rq (rd : MediaRead) : Rq :=
  let deep := fun (rq : Rq) => match rq with
    | .fr => if rd.step = 3 then Rq.mx else .fr
    | .fw | .fd => if 2 ≤ rd.step then .mx else rq
    | _ => rq
  match rd.why with
  | .host _ => deep .fr
  | .scan _ => .sc
  | .repair => .mx
  | .node _ _ _ rq _ => deep rq

/-- Last step of a read's ladder: 1 for a trusted Fast foreground read, 3 otherwise (R286–R288, R332). -/
def MediaRead.lastStep (rd : MediaRead) : Nat :=
  let fr := if rd.desc.patient || !rd.trusted then 3 else 1
  match rd.why with
  | .host _ => fr
  | .node _ _ _ rq _ => if rq == .fr then fr else 3
  | _ => 3

/-- Attempts allowed at a step (Table 08-7). -/
def triesAt (step : Nat) : Nat := if step = 2 then 3 else if step = 3 then 24 else 1

/-- The scratch set of an attempt of step 2 or 3: TS12 to TS14, or TS28 to TS30 for a 1-bit block (Table 05-4). -/
def MediaRead.scratch (rd : MediaRead) : Nat := (if rd.oneBit then 28 else 12) + rd.tries % 3

/-- Shift of an attempt's thresholds from the step-1 offsets (Table 08-7): 0, −8, +8; then ±4 to ±48 by 4, from below (the order of the 24, and that
the offsets themselves are not read again, are a DESIGN CHOICE: log entry 76). -/
def MediaRead.shift (rd : MediaRead) : Int :=
  if rd.step = 2 then (if rd.tries = 0 then 0 else if rd.tries = 1 then -8 else 8)
  else if rd.tries < 12 then (rd.tries : Int) * 4 - 48 else (rd.tries : Int) * 4 - 44

/-- Offsets shifted each by the same amount, kept in 8 bits. -/
def shiftOffsets (off : BitVec 24) (d : Int) : BitVec 24 :=
  BitVec.ofNat 24 ((List.range 3).foldl (fun n i => n + deg8 (max (-128) (min 127 ((off.extractLsb' (8 * i) 8).toInt + d))) * 2 ^ (8 * i)) 0)

/-- The request of a read's present step under a threshold set: MX raises deep recovery that is eligible at once (R285). -/
def MediaRead.req (rd : MediaRead) (ts : Nat) : ChReq :=
  ChReq.plain rd.rq (if rd.step = 2 then .readSoft else .read) rd.die rd.block rd.page rd.sector (BitVec.ofNat 2 rd.line) ts (.read rd.rid) rd.expiry (rd.rq == .mx)

/-- Store a changed read. -/
def State.putRead (s : State) (k : SliceId) (rd : MediaRead) : State :=
  s.updSlice k (fun x => { x with reads := x.reads.map (fun r => if r.rid = rd.rid then rd else r) })

/-- Load the scratch sets of a read: the three of step 2 before its first READ_SOFT, and one before each READ of step 3 (Table 08-7). -/
def State.loadScratch (s : State) (k : SliceId) (rd : MediaRead) : State :=
  let load := fun (s : State) (rd : MediaRead) => s.loadTs k rd.chan rd.die rd.scratch (shiftOffsets rd.off rd.shift)
  if rd.step = 2 then (if rd.tries = 0 then (List.range 3).foldl (fun s t => load s { rd with tries := t }) s else s) else load s rd

/-- Raise the request of a read's present step (Table 08-7): the Lens set of the block's effective band, TS31, or a scratch set loaded first. -/
def State.raiseStep (s : State) (k : SliceId) (rd : MediaRead) : State :=
  if rd.step = 0 then s.pushReq k rd.chan (rd.req (s.effBand ((s.slice k).media.block rd.chan.val rd.die.val rd.block) + (if rd.oneBit then 16 else 0)))
  else if rd.step = 1 then s.pushReq k rd.chan (rd.req 31)
  else (s.loadScratch k rd).pushReq k rd.chan (rd.req rd.scratch)

/-- A descriptor that stands for tree lines, which belong to no region: Fast. -/
def Desc.forTree : Desc := ⟨.active, .active, .clear, false, true, 0, false, false, 0, 0, 0, 0, 0, 0, 0, 0, 0, 0, 0, 0, []⟩

/-- First step of a media read of a block: 1 where its age is untrusted, as every block's is in Patient calibration (R276, R288). -/
def State.firstStep (s : State) (b : Block) : Nat := if s.trusted b then 0 else 1

/-- A media read of a line at its place on the medium, from its first step. -/
def State.newRead (s : State) (k : SliceId) (why : ReadFor) (line region : Nat) (d : Desc) (p : Place) (oneBit : Bool) (block page : Nat) : MediaRead :=
  let j := ch16 p.chan
  let die : DieId := fin8 p.die
  let b := (s.slice k).media.block j.val die.val block
  let trusted := s.trusted b
  let e := (s.slice k).lensEntry (j.val * 8 + die.val) oneBit (s.effBand b) ((s.chan k j).dies[die]).band
  { rid := s.nextId, why := why, line := line, region := region, desc := d, clean := true
    slot := match (s.slice k).front.look line with | .partly x m _ => some (x, m) | _ => none
    touched := [], chan := j, die := die, block := block, page := page, sector := line % 64 / 4, oneBit := oneBit, trusted := trusted
    step := s.firstStep b, tries := 0, off := lensOffsets e, sweep := [], late := false, expiry := 0, waited := false, got := none, nodes := []
    missed := false, parent := none, minor := none, fill := none, done := false }

/-- Enter a read and raise its request. -/
def State.enterRead (s : State) (k : SliceId) (rd : MediaRead) : State :=
  let s := { s with nextId := s.nextId + 1 }
  let s := s.updSlice k (fun x => { x with reads := x.reads ++ [rd] })
  s.raiseStep k rd

/-- A die-driven burst of some work has begun: its bank may take the next read (R164), and a run of lost responses ends (R187). -/
def Chan.burstBegan (c : Chan) (d : DieId) (w : Work) : Chan :=
  (c.updDie d (fun x => { x with lostInRow := 0 })).mapTenures (fun t => if t.req.work == w then { t with begun := true } else t)

/-- The retry point of a read's tenure closes (R209). -/
def Chan.closeRetry (c : Chan) (w : Work) : Chan := c.mapTenures (fun t => if t.req.work == w then { t with retry := false } else t)

/-- Forget a read and withdraw its requests; a frame is FILLING while a fill of it is still to land (R138). -/
def State.dropRead (s : State) (k : SliceId) (rd : MediaRead) : State :=
  let s := s.updSlice k (fun x => { x with reads := x.reads.filter (fun r => r.rid != rd.rid) })
  let s := match rd.fill with
    | some n => s.updSlice k (fun x => if x.reads.any (fun r => r.fill == some n) then x else
        { x with front := x.front.putEntry n { x.front.entry n with filling := false } })
    | none => s
  (s.dropWork k rd.chan (.read rd.rid)).updChan k rd.chan (·.closeRetry (.read rd.rid))

/-! ## Tree nodes for reads (R332) -/

/-- A read waits for a tree node. -/
def State.awaits (s : State) (r : MediaRead) (level idx : Nat) : Bool :=
  r.nodes.contains level && (match s.lineSeal r.line with | some i => i / 8 ^ level == idx | none => false)

/-- A node that has been checked, or is known to be zero, serves every read that waits for it and goes into the front store as Clean (R332); a
pinned one goes to table SRAM. Reads of the same node for other readers are not needed any more. -/
def State.serveNode (s : State) (k : SliceId) (level idx : Nat) (node : Line) : State :=
  let give := fun (r : MediaRead) => match s.lineSeal r.line with
    | none => r
    | some i => if level = 0 then { r with minor := some (leafMinor node (r.line % 64)) } else if level = 1 then { r with parent := some (nodeEntry node (i % 8)) } else r
  let s := s.updSlice k (fun x => { x with
    tree := if 2 ≤ level then { x.tree with pinned := SMap.put x.tree.pinned (level * 2 ^ 26 + idx) node, suspect := x.tree.suspect.filter (· != (level, idx)) } else x.tree
    reads := x.reads.map (fun r =>
      let r := if s.awaits r level idx then { give r with nodes := r.nodes.filter (· != level) } else r
      match r.why with
      | .node 0 i _ _ _ => if level = 1 && i / 8 == idx then { r with parent := some (nodeEntry node (i % 8)) } else r
      | _ => r) })
  let s := ((s.slice k).reads.filter (fun r => match r.why with | .node l i _ _ _ => l == level && i == idx | _ => false)).foldl (fun s r => s.dropRead k r) s
  if 2 ≤ level then s else s.updFront k (fun f => f.placeClean s.beat.salt s.beat.now (treeLine k.val level idx) node)

/-- Pinned nodes above node idx of a level that failed their check when they were reloaded, the highest first (R353). -/
def Tree.suspects (t : Tree) (level idx : Nat) : List (Nat × Nat) :=
  ((List.range 7).map (fun n => 8 - n)).filterMap (fun l =>
    if level < l && t.suspect.contains (l, idx / 8 ^ (l - level)) then some (l, idx / 8 ^ (l - level)) else none)

/-- Raise a read of one tree node for a requester, unless the front store holds it (R331, R332). A node never written is zero and needs no read;
one whose place is lost is unverifiable (R217, R352). Its ladder is that of the region's class. -/
def State.raiseNode1 (s : State) (k : SliceId) (level idx : Nat) (reader : Option Nat) (rq : Rq) (memory patient trusted : Bool) (expiry : Option Nat) : State :=
  let line := treeLine k.val level idx
  match s.lineSource k line with
  | some (_, .zero) => s.serveNode k level idx 0
  | some (.at p, .media oneBit block page) =>
    let d : Desc := { Desc.forTree with patient := patient || !trusted }
    let rd := s.newRead k (.node level idx reader rq memory) line 0 d p oneBit block page
    let s := if rd.trusted || rq != .fr then s else s.count k 0x30B
    s.enterRead k { rd with expiry := expiry.getD (s.beat.events * 1000000 + classBound patient (trusted && rd.trusted) true) }
  | _ => s.addUnver k level idx

/-- Raise a read of a tree node for a requester, and before it of the pinned nodes above it that the reload left unchecked, unless they are on their way
(R332, R353). -/
def State.raiseNode (s : State) (k : SliceId) (level idx : Nat) (reader : Option Nat) (rq : Rq) (memory patient trusted : Bool) (expiry : Option Nat) : State :=
  let busy := fun (s : State) (n : Nat × Nat) => (s.slice k).reads.any (fun r => match r.why with | .node l i _ _ _ => l == n.1 && i == n.2 | _ => false)
  let s := ((s.slice k).tree.suspects level idx).foldl (fun s n => if busy s n then s else s.raiseNode1 k n.1 n.2 reader rq memory patient trusted expiry) s
  s.raiseNode1 k level idx reader rq memory patient trusted expiry

/-- What an uncorrectable word of a line that the front store holds does to the line (R147, Table 10-8): a Clean line becomes Invalid; a Dirty or Partial one
is poisoned, with its record, which names the word's SRAM die and the frame, or as an unverifiable node. -/
def State.lineBad (s : State) (k : SliceId) (issuer : Option Port) (line i : Nat) : State :=
  match (s.slice k).front.look line with
  | .miss => s
  | .full _ _ false => s.updFront k (·.invalidate line s.beat.now)
  | .full _ frame _ | .partly _ _ frame =>
    let s := s.updFront k (·.poisonLine line)
    match treeOf line with
    | none => s.mediaRecord issuer (line * 64) k.val k.val (sramDie i) (frame.getD 0) 0
    | some (_, level, idx) => s.addUnver k level idx

/-- The lookup of a tree node in the front store reads its words: a hit touches its way (R124, R144, R147). -/
def State.readNode (s : State) (k : SliceId) (level idx : Nat) (errs : List Nat) : State :=
  let line := treeLine k.val level idx
  match s.sramRead k line (fun _ => true) errs with
  | (none, s) => s.updFront k (·.touchLine line)
  | (some i, s) => s.lineBad k none line i

/-- Fetch a node into the front store for an engine (R331), unless it is held or on its way. -/
def State.fetchNode (s : State) (k : SliceId) (level idx : Nat) : State :=
  let s := s.readNode k level idx []
  let busy := (s.slice k).reads.any (fun r => match r.why with | .node l i none _ _ => l == level && i == idx | _ => false)
  if (s.nodeLine k level idx).isSome || busy then s else (s.count k 0x503).raiseNode k level idx none .fw false false true none

/-- A read of a Sealed line takes what its held nodes give, and raises FR reads, or those of its own requester, for the others: the
leaf-parent's first (R332, R333). -/
def State.wantNodes (s : State) (k : SliceId) (rd : MediaRead) : State :=
  match s.lineSeal rd.line with
  | none => s
  | some i =>
    let s := (s.readNode k 1 (i / 8) []).readNode k 0 i []
    let par := s.nodeLine k 1 (i / 8)
    let leaf := s.nodeLine k 0 i
    let missing := (if par.isNone then [1] else []) ++ (if leaf.isNone then [0] else [])
    let s := s.putRead k { rd with
      parent := par.map (fun n => nodeEntry n (i % 8)), minor := leaf.map (fun n => leafMinor n (rd.line % 64))
      nodes := ((s.slice k).tree.suspects 1 (i / 8)).map (·.1) ++ missing }
    let s := if missing.isEmpty then ((s.slice k).tree.suspects 1 (i / 8)).foldl (fun s n =>
      s.raiseNode1 k n.1 n.2 (some rd.rid) rd.rq false rd.desc.patient rd.trusted (some rd.expiry)) s else s
    let s := (s.count k 0x503 missing.length).count k 0x504 (2 - missing.length)
    missing.foldl (fun s level => s.raiseNode k level (if level = 0 then i else i / 8) (some rd.rid) rd.rq false rd.desc.patient rd.trusted (some rd.expiry)) s

/-- Raise a media read of a line at a place on the medium (R285, R332). A Sealed read is a counter-tree miss when a node is not held, and is
untrusted when a node's own block is (R288). -/
def State.raiseRead (s : State) (k : SliceId) (why : ReadFor) (line region : Nat) (d : Desc) (p : Place) (oneBit : Bool) (block page : Nat) : State :=
  let rd := s.newRead k why line region d p oneBit block page
  let wants := d.mode == .sealed && (match why with | .scan _ => s.keysLoaded d | _ => true)
  let nodes := if wants then (match s.lineSeal line with
    | some i => (if (s.nodeLine k 1 (i / 8)).isNone then [(1, i / 8)] else []) ++ (if (s.nodeLine k 0 i).isNone then [(0, i)] else [])
    | none => []) else []
  let sure := nodes.all (fun n => match s.lineSource k (treeLine k.val n.1 n.2) with
    | some (.at q, .media _ b _) => s.trusted ((s.slice k).media.block (q.chan % 16) (q.die % 8) b)
    | _ => true)
  let rd := { rd with missed := !nodes.isEmpty, trusted := rd.trusted && sure }
  let rd := { rd with expiry := (match why with | .host q => q.born + q.extra | _ => s.beat.events * 1000000) + rd.bound }
  let s := if (s.newRead k why line region d p oneBit block page).trusted || rd.rq != .fr then s else s.count k 0x30B
  let s := s.enterRead k rd
  if wants then s.wantNodes k rd else s

/-! ## Scan Media (Table 11-6) -/

/-- Lines of the range that a working slice holds on the medium: pages of mapped blocks and of overlay entries. -/
def State.mediaLines (s : State) (lo hi : Nat) : List (SliceId × Nat) :=
  (s.sliceIds.filter s.working).flatMap (fun k =>
    let m := (s.slice k).media
    let pages := m.overlay.map (·.1) ++ m.bmap.flatMap (fun e => if e.2.st == .mapped then (List.range 1024).map (fun i => e.1 * 1024 + i) else [])
    pages.flatMap (fun pk => match s.lineOfPage k pk 0 with
      | none => []
      | some l => ((List.range 64).filter (fun i => decide (lo ≤ l + i ∧ l + i < hi) && (match s.lineSource k (l + i) with
        | some (_, .media _ _ _) => true
        | _ => false))).map (fun i => (k, l + i))))

/-- The lowest of them. -/
def State.nextMapped (s : State) (lo hi : Nat) : Option (SliceId × Nat) :=
  (s.mediaLines lo hi).foldl (fun (best : Option (SliceId × Nat)) e => match best with
    | none => some e
    | some b => if e.2 < b.2 then some e else best) none

/-- A head's Scan Media goes on: the next mapped line is read as SC work, or the scan ends. After an accepted abort no
line beyond the next 4 MiB boundary is read (R366). -/
def State.scanOn (s : State) (p : Port) : State :=
  match (s.head p).bg with
  | none => s
  | some b =>
    match b.kind with
    | .scan lo hi next =>
      match s.nextMapped next hi with
      | none => s.endBg p .success 0 none
      | some (k, line) =>
        if b.abort && decide (next ≠ lo) && decide ((next - 1) / 65536 < line / 65536) then s
        else
          let s := (s.bgKind p (.scan lo hi (line + 1))).bgProgress p ((line - lo) * 100 / (hi - lo))
          match s.regionAt (line * 64), s.lineSource k line with
          | some (r, d, _), some (.at pl, .media oneBit block page) => s.raiseRead k (.scan p) line r { d with patient := true } pl oneBit block page
          | _, _ => s
    | _ => s

/-- A read of a scan has ended; `bad` is the line when it could not be read or is poisoned. -/
def State.scanned (s : State) (p : Port) (bad : Option Nat) : State :=
  (s.updHead p (fun h => { h with scanResults := match bad with | some l => h.scanResults ++ [l] | none => h.scanResults })).scanOn p

/-- Start background repair of a line after its host read ended in poison (R289): the rest of the ladder under MX, from the step named. Versions that the read already had stay with it; nodes that it still waits for are read for the repair. -/
def State.startRepair (s : State) (k : SliceId) (rd : MediaRead) (step : Nat) : State :=
  let mine := (s.slice k).reads.filter (fun r => match r.why with | .node _ _ (some q) _ _ => q == rd.rid | _ => false)
  let s := mine.foldl (fun s r => s.dropRead k r) s
  let rd' : MediaRead := { rd with rid := s.nextId, why := .repair, step := step, tries := 0, sweep := [], got := none, fill := none, done := false }
  let s := { s with nextId := s.nextId + 1 }
  let s := (s.updSlice k (fun x => { x with reads := x.reads ++ [rd'] })).raiseStep k rd'
  if rd'.nodes.isEmpty then s else s.wantNodes k rd'

/-- General Media record about a media line (R532): MC number, die, bank. -/
def State.lineRecord (s : State) (k : SliceId) (issuer : Option Port) (line chan die block ty : Nat) : State :=
  s.mediaRecord issuer (line * 64) k.val (16 * k.val + chan) die (block % 16) ty

/-- Slots of a burst part counted retired or wasted (R525, R526). -/
def State.acct (s : State) (k : SliceId) (j : ChanId) (i : Fin 2) (n : Nat) : State :=
  s.updChan k j (fun c => { c with acct := c.acct.set i (c.acct[i] + n) })

/-- A host read ends with data (R133, R138): laid under the bytes that its lookup found in a Partial slot, completed; then the merged line is
written back and the fill takes its frame. -/
def State.readDone (s : State) (k : SliceId) (rd : MediaRead) (r : Req) (data : Line) (poison : Bool) : State :=
  let (out, bad) := match rd.slot with
    | some (x, m) => (mergeBytes data x.read m, poison || x.poisoned)
    | none => (data, poison)
  let s := s.completeCxl r (if bad then 0 else out) bad rd.bound
  let s := s.count k (if rd.step = 0 then 0x301 else if rd.step = 1 then 0x302 else if rd.step = 2 then 0x303 else 0x304)
  let s := if rd.step = 0 then s else s.addError (if rd.step = 1 then 2 else if rd.step = 2 then 3 else 4)
  -- a READ_SOFT is always wasted; an MX read is settled at its tenure's end (Table 17-2)
  let s := if rd.step ≤ 1 then s.acct k rd.chan 0 10 else if rd.step = 2 then s.acct k rd.chan 1 20 else s
  -- unless a write to the line has committed since the lookup (R133)
  let s := if rd.slot.isSome && rd.clean && !poison then s.updFront k (·.mergeBack s.beat.now rd.line out bad) else s
  -- the fill takes its frame as the completion is sent (R138)
  if rd.desc.readFill && !poison && rd.step != 2 then
    let f := (s.slice k).front
    let seg := rd.line / 32
    match f.find seg with
    | some (n, e) =>
      let s := s.updFront k (fun f => f.putEntry n { e with filling := true })
      s.putRead k { rd with fill := some n, done := true }
    | none =>
      match f.pick (setOf s.beat.salt seg) with
      | some n =>
        let s := s.updFront k (fun f => let f := f.assign n seg; (f.putEntry n { f.entry n with filling := true }).writeHdr n s.beat.now)
        let s := s.count k 0x202
        s.putRead k { rd with fill := some n, done := true }
      | none => (s.count k 0x20B).dropRead k rd
  else (if rd.step ≤ 1 then s.acct k rd.chan 1 30 else s).dropRead k rd

/-- A host read ends in poison (R10, R133, R289): slot, mask and state stay; record and repair as asked. -/
def State.readPoison (s : State) (k : SliceId) (rd : MediaRead) (r : Req) (repairFrom : Option Nat) (record : Bool) : State :=
  let s := s.completeCxl r 0 true rd.bound
  let s := if record then s.lineRecord k (some r.port) rd.line rd.chan.val rd.die.val rd.block 0 else s
  let s := s.dropRead k rd
  match repairFrom with
  | some step => s.startRepair k rd step
  | none => s

/-- Commit a full line that a repair recovered or lost (R289): over the Partial slot or the entry that holds the line, a retired frame's too,
else in a frame under steps 1 and 2 of R123; without a frame the line is held. -/
def State.repairCommit (s : State) (k : SliceId) (line : Nat) (out : Line) (bad : Bool) : State :=
  let ev := fun (s : State) => s.count k (if bad then 0x307 else 0x306)
  match (s.slice k).front.look line with
  | .partly _ _ _ => ev ((s.updFront k (·.mergeBack s.beat.now line out bad)).notePoison line (if bad then some .media else none))
  | _ =>
    let (s', done) := s.commitRepair k line out bad
    if done then ev s' else s.updSlice k (fun x => { x with holding := x.holding ++ [(line, out, bad)] })

/-- Commit the outcome of a repair (R289): dropped when a write has committed since; the bytes that a Partial slot held are laid over it
(R133). Either way the block gets REFRESH or collection. -/
def State.repairDone (s : State) (k : SliceId) (rd : MediaRead) (data : Line) (poison : Bool) : State :=
  let s := (s.dropRead k rd).wantRefresh k rd.chan.val rd.die.val rd.block
  if !rd.clean then s
  else
    let (out, bad) := match rd.slot with
      | some (x, m) => (mergeBytes data x.read m, poison || x.poisoned)
      | none => (data, poison)
    s.repairCommit k rd.line out bad

/-- An unreadable codeword that a background reader met (R228): a General Media record, SUSPECT on its block, and when it was SUSPECT
already, retirement once its data has moved, which it is asked to (R246). -/
def State.unreadable (s : State) (k : SliceId) (j d block line : Nat) : State :=
  let x := (s.slice k).media.block j d block
  let s := s.lineRecord k none line j d block 0
  if x.suspect then
    (s.updMedia k (fun m => { m with unreadable := if m.unreadable.contains (j * 8 + d, block) then m.unreadable else (j * 8 + d, block) :: m.unreadable })).wantRefresh k j d block
  else s.updMedia k (·.setBlock s.beat.events j d block { x with suspect := true })

/-- A host read ends in poison at its bound (R290). -/
def State.boundPoison (s : State) (k : SliceId) (rd : MediaRead) (r : Req) (repairFrom : Option Nat) : State := (s.count k 0x305).readPoison k rd r repairFrom true

/-- The reads of nodes below a node that cannot be had are not needed: nothing could check what they bring. -/
def State.dropBelow (s : State) (k : SliceId) (level idx : Nat) : State :=
  ((s.slice k).reads.filter (fun r => match r.why with | .node l i _ _ _ => decide (l < level ∧ i / 8 ^ (level - l) = idx) | _ => false)).foldl (fun s r => s.dropRead k r) s

/-- Every read that waits for a node ends: a host read in poison, at its bound where the node's ladder has ended there, a scan with its line bad (R332, R350). -/
def State.failReaders (s : State) (k : SliceId) (level idx : Nat) (record atBound : Bool) : State :=
  ((s.slice k).reads.filter (fun r => s.awaits r level idx)).foldl (fun s r => match r.why with
    | .host q => if atBound then s.boundPoison k r q none else s.readPoison k r q none record
    | .scan p => (s.dropRead k r).scanned p (some r.line)
    | _ => s.dropRead k r) (s.dropBelow k level idx)

/-- A host read that a spill or frame slot's poison or a stored poison ended: stored poison of a Fast read is repaired too (R133, R289). -/
def MediaRead.repairFrom (rd : MediaRead) : Option Nat := if rd.lastStep = 1 then some 2 else none

/-- The read's ladder is exhausted (R286–R289, R332): what a host read, a repair, a node or a scan does then. -/
def State.readExhausted (s : State) (k : SliceId) (rd : MediaRead) : State :=
  match rd.why with
  | .host r =>
    if rd.step ≤ 1 then s.boundPoison k rd r (some 2)
    else
      -- Patient: the whole ladder has run; the line is committed poisoned (R287)
      let s := s.readPoison k rd r none true
      if rd.clean then s.repairCommit k rd.line 0 true else s
  | .repair => (s.unreadable k rd.chan.val rd.die.val rd.block rd.line).repairDone k rd 0 true
  | .node level idx _ rq memory =>
    let s := s.dropRead k rd
    if rq == .fr && rd.lastStep = 1 then
      -- the node goes to background repair (R332)
      let rd' := { rd with rid := s.nextId, why := .node level idx none .mx memory, step := 2, tries := 0, sweep := [] }
      let s := { s with nextId := s.nextId + 1 }
      ((s.updSlice k (fun x => { x with reads := x.reads ++ [rd'] })).raiseStep k rd').failReaders k level idx true true
    else ((s.unreadable k rd.chan.val rd.die.val rd.block rd.line).addUnver k level idx).failReaders k level idx true false
  | .scan p =>
    let s := (s.unreadable k rd.chan.val rd.die.val rd.block rd.line).dropRead k rd
    -- a background reader stores the line poisoned (R228)
    (if rd.clean then s.repairCommit k rd.line 0 true else s).scanned p (some rd.line)

/-- The step-1 read of an FR ladder follows in the tenure of its first read: its READ slot names TS31, and it has a hold of its own (R191,
R202, R209). Answers whether such a tenure still holds its retry point. -/
def State.retryRead (s : State) (k : SliceId) (rd : MediaRead) : Bool × State :=
  let c := s.chan k rd.chan
  let mine := fun (t : Tenure) => t.req.work == .read rd.rid && t.req.rq == .fr && t.retry && t.held == 0
  if c.talks rd.die && (c.arb.owner.any mine || c.arb.tail.any mine) then
    let req := rd.req 31
    -- the retry point lies 30 ns after the first transfer at the latest (R209)
    let at30 := fun (t : Tenure) => t.base + (if t.paused then 210 else 10) + (if rd.oneBit then 220 else 320) + 120
    let more := fun (t : Tenure) => if mine t then { t with req := req, paused := false, held := t.held + t.hold, hold := 410, base := at30 t, retry := false, begun := false } else t
    let s := s.updChan k rd.chan (·.mapTenures more)
    let s := s.bumpRead k rd.chan rd.die.val rd.block 1
    (true, s.sendSlot k rd.chan rd.die (slotRead 0x01 rd.die.val rd.block rd.page rd.sector (rd.line % 4) 31) (some req))
  else (false, s)

/-- Climb: another attempt at this step, the next step, or the end (Table 08-7). -/
def State.climb (s : State) (k : SliceId) (rd : MediaRead) : State :=
  if rd.tries + 1 < triesAt rd.step then
    let rd := { rd with tries := rd.tries + 1 }
    (s.putRead k rd).raiseStep k rd
  else if rd.step < rd.lastStep then
    let rd := { rd with step := rd.step + 1, tries := 0 }
    let s := s.putRead k rd
    if rd.step = 1 && rd.rq == .fr then
      let (sent, s) := s.retryRead k rd
      if sent then s else s.raiseStep k rd
    else s.raiseStep k rd
  else s.readExhausted k rd

/-- Act on a check's verdict. -/
def State.actVerdict (s : State) (k : SliceId) (rd : MediaRead) (v : Verdict) : State :=
  match v with
  | .ok data poison nk =>
    let s := if nk then s.count k 0x507 else s
    match rd.why with
    | .host r => if poison then s.readPoison k rd r rd.repairFrom false else s.readDone k rd r data false
    | .repair => s.repairDone k rd data poison
    | .node _ _ _ _ _ => s.dropRead k rd
    | .scan p => (s.dropRead k rd).scanned p (if poison then some rd.line else none)
  | .ladder => (s.count k 0x501).climb k rd
  | .dataError =>
    match rd.why with
    | .host r => s.readPoison k rd r (some (rd.step + 1)) true
    | _ => s.readExhausted k rd
  | .alarm c =>
    let s := s.count k (if c = 1 then 0x500 else 0x502)
    let s := s.alarm c k.val (rd.line * 64) 0
    match rd.why with
    | .host r => s.readPoison k rd r none false
    | .scan p => (s.dropRead k rd).scanned p (some rd.line)
    | _ => s.dropRead k rd

/-- Major and minor that a read's nodes gave it. -/
def MediaRead.version (rd : MediaRead) : Option (Nat × Nat) :=
  match rd.parent, rd.minor with
  | some p, some m => some (p.toNat % 2 ^ 40, m)
  | _, _ => none

/-- A data line's codeword and its nodes are in: check it. -/
def State.checkRead (s : State) (k : SliceId) (rd : MediaRead) (info : BitVec 580) (n : Nat) : State :=
  match rd.why with
  | .scan p =>
    -- a line whose keys are not held is read as far as its code shows
    if !s.keysLoaded rd.desc then (s.dropRead k rd).scanned p none else s.actVerdict k { rd with got := none } (s.checkLine rd.desc rd.line info n rd.version)
  | _ => s.actVerdict k { rd with got := none } (s.checkLine rd.desc rd.line info n rd.version)

/-- A node was decoded, and the counter that its parent holds for it is known: it serves its readers, climbs on, or fails (Table 10-8). -/
def State.checkNode (s : State) (k : SliceId) (rd : MediaRead) (level idx : Nat) (memory : Bool) (parent : BitVec 64) (info : BitVec 580) (n : Nat) : State :=
  if s.nodeOk k level idx parent info then s.serveNode k level idx (infoData info)
  else if 4 ≤ n then s.climb k { rd with got := none }
  else if memory then ((s.dropRead k rd).addUnver k level idx).failReaders k level idx false false
  else (((s.count k 0x502).alarm 2 k.val 0 (level + idx * 2 ^ 8)).dropRead k rd).failReaders k level idx false false

/-- The counter to check a node read against, when it is known: a leaf's may wait for its leaf-parent, and another node's for a pinned node that the reload left
unchecked (R327, R332, R353). -/
def State.nodeParent (s : State) (k : SliceId) (rd : MediaRead) (level idx : Nat) : Option (BitVec 64) :=
  if level ≠ 0 then (if (s.slice k).tree.suspect.contains (level + 1, idx / 8) then none else some (s.parentCount k level idx))
  else match rd.parent with
    | some e => some e
    | none => (s.nodeLine k 1 (idx / 8)).map (fun n => nodeEntry n (idx % 8))

/-- A codeword was decoded: it is checked once what it is checked against is in (R332). -/
def State.decoded (s : State) (k : SliceId) (rd : MediaRead) (info : BitVec 580) (n : Nat) : State :=
  match rd.why with
  | .node level idx _ _ memory =>
    match s.nodeParent k rd level idx with
    | some e => s.checkNode k rd level idx memory e info n
    | none => s.putRead k { rd with got := some (info, n) }
  | _ => if rd.nodes.isEmpty then s.checkRead k rd info n else s.putRead k { rd with got := some (info, n) }

/-- Reads whose codeword waited and whose nodes are now in are checked: leaves first, then lines. -/
def State.settleReads (s : State) (k : SliceId) : State :=
  let go := fun (nodes : Bool) (s : State) => (s.slice k).reads.foldl (fun s r =>
    match (s.slice k).reads.find? (fun x => x.rid = r.rid) with
    | none => s
    | some rd => match rd.got, rd.why with
      | some (g, n), .node level idx _ _ memory => if nodes then (match s.nodeParent k rd level idx with
          | some e => s.checkNode k rd level idx memory e g n
          | none => s) else s
      | some (g, n), _ => if !nodes && rd.nodes.isEmpty then s.checkRead k rd g n else s
      | none, _ => s) s
  go false (go true s)

/-- Versions of the reads in flight of a group's lines are those that its nodes hold now, before they are raised (R331, R334): the codewords
under way were written under them. -/
def State.pinVersions (s : State) (k : SliceId) (i : Nat) (parent leaf : Line) : State :=
  s.updSlice k (fun x => { x with reads := x.reads.map (fun r =>
    let data := match r.why with | .node _ _ _ _ _ => false | _ => true
    if data && s.lineSeal r.line == some i then
      { r with parent := some (r.parent.getD (nodeEntry parent (i % 8))), minor := some (r.minor.getD (leafMinor leaf (r.line % 64))), nodes := [] }
    else r) })

/-- A measured read leaves its offsets and its page in TS31, and refines the Lens (R171, R283). -/
def State.measured (s : State) (k : SliceId) (rd : MediaRead) : State :=
  (s.updChan k rd.chan (·.updDie rd.die (fun d => { d with sets := SMap.put d.sets 31 rd.off, tsPage := some (rd.block, rd.page) }))).refine k rd.chan rd.die
    ((s.slice k).media.block rd.chan.val rd.die.val rd.block) rd.off

/-- Step 3 decodes once the whole sweep is in (R285, Table 08-7); until then nothing is decoded. -/
def MediaRead.swept (rd : MediaRead) : CwRead := if rd.tries + 1 < triesAt 3 then .bad else cwSweep rd.sweep

/-- One media read attempt lands (R285): decode as the step says, refine the Lens, check, or climb. -/
def State.readLands (s : State) (k : SliceId) (rd : MediaRead) (r : Sense) : State :=
  let s := s.updChan k rd.chan (·.burstBegan rd.die (.read rd.rid))
  let rd := if rd.step = 1 then { rd with off := r.off } else rd
  let s := if rd.step = 1 then s.measured k rd else s
  let rd := if rd.step = 3 then { rd with sweep := rd.sweep ++ [r.bits] } else rd
  let s := match (if rd.step ≤ 1 then cwRead r.bits else if rd.step = 2 then cwClass r.bits (cwSoft r.bits r.rel) else rd.swept) with
    | .good i n => s.decoded k rd i n
    | _ =>
      let host := match rd.why with | .host _ => true | _ => false
      (if host && rd.step ≤ 1 then s.acct k rd.chan 1 40 else if host && rd.step = 2 then s.acct k rd.chan 1 20 else s).climb k rd
  -- with the result the retry point closes, but for a step-1 read that has just gone out in the tenure
  ((s.updChan k rd.chan (·.mapTenures (fun t => if t.req.work == .read rd.rid && t.begun then { t with retry := false } else t))).resumeDue k rd.chan).settleReads k

/-- Read of a slice by number. -/
def State.readOf (s : State) (k : SliceId) (rid : Nat) : Option MediaRead := (s.slice k).reads.find? (fun r => r.rid = rid)

/-- The read's request has been granted: nothing of it waits on its channel, queued or chosen, and its owner was not reset (R204). -/
def State.readIssued (s : State) (k : SliceId) (rd : MediaRead) : Bool :=
  let c := s.chan k rd.chan
  let mine := fun (q : ChReq) => q.work == .read rd.rid
  !(c.arb.queue.any mine) && !(c.arb.chosen.any mine) && !(c.tenures.any (fun t => mine t.req && t.discard)) && !rd.done && rd.got.isNone

/-! ## The meanings -/

/-- MEDIA_READ_STEP (R285). -/
def execMediaReadStep (k : SliceId) (rid : Nat) (r : Sense) (s : State) : Host.Outcome State Fault Refusal :=
  .next (match s.readOf k rid with
    | some rd =>
      match rd.why with
      | .host _ | .scan _ => if s.readIssued k rd then (s.readLands k rd r).grantCredits else s
      | _ => s
    | none => s)

/-- PATIENT_READ_DEADLINE (R287): an unfinished ladder goes to repair and the read returns poison. -/
def execPatientReadDeadline (k : SliceId) (rid : Nat) (s : State) : Host.Outcome State Fault Refusal :=
  .next (match s.readOf k rid with
    | some rd =>
      match rd.why with
      | .host r => if !rd.done && (rd.desc.patient || !rd.trusted) then s.boundPoison k rd r (some rd.step) else s
      | _ => s
    | none => s)

/-- FR_OVER_BOUND (R189, R208, R212): the read cannot complete in time; poison at its bound, repair, counts. -/
def execFrOverBound (k : SliceId) (rid : Nat) (s : State) : Host.Outcome State Fault Refusal :=
  .next (match s.readOf k rid with
    | some rd =>
      match rd.why with
      | .host r =>
        if rd.done || s.readIssued k rd then s
        else
          let s := s.updChan k rd.chan (fun c => { c with arb := { c.arb with overBound := c.arb.overBound + 1 } })
          let window := (SMap.get? ((s.chan k rd.chan).dies[rd.die]).banks (rd.block % 16)).any (·.window)
          let s := s.count k (if rd.waited || window then 0x709 else 0x708)
          let s := s.updSlice k (fun x => { x with snap := { x.snap with excess := x.snap.excess + 1 } })
          s.boundPoison k rd r (some (max 2 rd.step))
      | _ => s
    | none => s)

/-- TREE_NODE_FETCH (R332): a read of the leaf-parent or of the leaf that a read waits for lands. -/
def execTreeNodeFetch (k : SliceId) (rid : Nat) (parent : Bool) (r : Sense) (s : State) : Host.Outcome State Fault Refusal :=
  .next (match (s.slice k).reads.find? (fun x => match x.why with
      | .node level _ (some q) _ _ => q == rid && level == (if parent then 1 else 0)
      | _ => false) with
    | some rd => if s.readIssued k rd then (s.readLands k rd r).grantCredits else s
    | none => s)

/-- READ_FILL_LAND (R138): the sector's codewords, in order 0–3, land in the frame taken. A line that a commit reached after the read was
raised is not written. -/
def execReadFillLand (k : SliceId) (rid : Nat) (cws : List (BitVec 640)) (s : State) : Host.Outcome State Fault Refusal :=
  .next (match s.readOf k rid with
    | none => s
    | some rd =>
      match rd.fill with
      | none => s
      | some n =>
        let first := rd.line / 4 * 4
        let lines := (List.range 4).filterMap (fun i =>
          match cws[i]? with
          | none => none
          | some v =>
            if rd.touched.contains (first + i) then none
            else match cwRead v with
              | .good info c =>
                match s.checkLine rd.desc (first + i) info c (if first + i = rd.line then rd.version else s.sealedVersion k (first + i)) with
                | .ok d p _ => some ((first + i) % 32, d, p)
                | _ => none
              | _ => none)
        let e := (s.slice k).front.entry n
        if e.filling && e.present && e.seg == rd.line / 32 then
          let more := (s.slice k).reads.any (fun r => r.rid != rd.rid && r.fill == some n)
          let s := s.updFront k (fun f => f.landFill n s.beat.now lines more)
          let s := if lines.isEmpty then s.count k 0x20B else s.count k 0x20A
          let s := s.acct k rd.chan (if lines.isEmpty then 1 else 0) 30
          (s.dropRead k { rd with fill := none }).grantCredits
        else (s.count k 0x20B).dropRead k rd)

/-- BACKGROUND_REPAIR (R289): an attempt of the rest of the ladder lands; so does one of a node that no read waits for (R331, R332). -/
def execBackgroundRepair (k : SliceId) (rid : Nat) (r : Sense) (s : State) : Host.Outcome State Fault Refusal :=
  .next (match s.readOf k rid with
    | some rd =>
      match rd.why with
      | .repair | .node _ _ none _ _ => if s.readIssued k rd then (s.readLands k rd r).grantCredits else s
      | _ => s
    | none => s)

/-- REPAIR_FRAME_RETRY (R289): held recovered lines try again for a frame. -/
def execRepairFrameRetry (k : SliceId) (s : State) : Host.Outcome State Fault Refusal :=
  .next (let held := (s.slice k).holding
    let s := s.updSlice k (fun x => { x with holding := [] })
    (held.foldl (fun s (line, d, p) => s.repairCommit k line d p) s).grantCredits)

end Sys2Proof.Machine
end

