-- ==== Sys2Proof/Machine/MediaHealth.lean ====
section
/-! DEFINITION. Retirement, channel health, failed dies and absent channels (R97, R98, R222, R239, R246, R247, R250). -/

namespace Sys2Proof.Machine

/-- State of a bank from its spares and S0 (Table 07-11). -/
def bankHealth (sp s0 : Nat) : Nat :=
  if s0 = 0 then 0 else if sp = 0 then 4 else if 50 * sp < s0 then 3 else if 10 * sp < s0 then 2 else if 4 * sp < s0 then 1 else 0

/-- Worst bank of a channel: state and spares. -/
def State.chanHealth (s : State) (k : SliceId) (j : Nat) : Nat × Nat :=
  let m := (s.slice k).media
  (m.s0.filter (fun b => decide (b.1 / 128 = j))).foldl (fun (acc : Nat × Nat) b =>
    let sp := m.spares (s.overflow k) b.1
    let h := bankHealth sp b.2
    if acc.1 < h then (h, sp) else acc) (0, 0)

/-- Re-evaluate a channel's health (R250): states never improve; each change is recorded, and from Replace-Requested on
the spares cause is set. -/
def State.updHealth (s : State) (k : SliceId) (j : Nat) : State :=
  let (h, sp) := s.chanHealth k j
  let old := SMap.getD (s.slice k).media.health j 0
  if h ≤ old then s
  else
    let s := s.updMedia k (fun m => { m with health := SMap.put m.health j h })
    -- folds, collections and resets of an Exhausted channel end (R251)
    let ends := fun (r : ChReq) => match r.work with | .fold _ | .gc _ | .reset _ _ => true | _ => false
    let s := if h = 4 then s.updChan k (ch16 j) (fun c => { c with arb := { c.arb with queue := c.arb.queue.filter (fun r => !ends r), chosen := c.arb.chosen.filter (fun r => !ends r) } })
      else s
    let log : LogId := if 3 ≤ h then .failure else if h = 2 then .warning else .informational
    let s := s.vendorAll log 0x0302 k.val j 0xFF 0 h sp
    -- a change of the package's health status is a Memory Module event (R531)
    let s := if 2 ≤ h then s.setReplace 0 else s
    s

/-- Re-evaluate every channel of a slice. -/
def State.updHealthAll (s : State) (k : SliceId) : State := (List.range 16).foldl (fun s j => s.updHealth k j) s

/-- Retire a block (R246). -/
def State.retireBlock (s : State) (k : SliceId) (j d b cause : Nat) : State :=
  (s.updMedia k (fun m => m.retire s.beat.events j d b cause)).updHealth k j

/-- A logical block's fold ends without a commit (R239): CAPTURED and FOLDING are cleared and FOLD_ABANDON recorded. -/
def Media.abandonFold (m : Media) (now key blk : Nat) : Media :=
  let m := m.log now (.foldAbandon key blk)
  { m with bmap := SMap.put m.bmap key { m.entry key with folding := false },
           overlay := m.overlay.map (fun e => if e.1 / 1024 = key then (e.1, { e.2 with captured := false }) else e),
           folds := m.folds.map (fun c => (c.1, c.2.filter (fun f => f.key != key))) }

/-- A block that failed leaves its set (R239): SUSPECT, or retired when it was already; released; K is folded again first. -/
def State.dropFold (s : State) (k : SliceId) (j d key blk : Nat) (aborted : Bool) : State :=
  let x := (s.slice k).media.block j d blk
  let s := s.updMedia k (fun m =>
    let m := m.abandonFold s.beat.events key blk
    { m with urgent := if m.urgent.contains key then m.urgent else m.urgent ++ [key] })
  if x.suspect then s.retireBlock k j d blk 4
  else s.updMedia k (fun m =>
    let m := m.setBlock s.beat.events j d blk { x with suspect := true, aborted := x.aborted || aborted }
    m.release s.beat.events j d blk)

/-- A line whose drain ends without a journal copy keeps its state, to be drained again (R137). -/
def Front.untakeLine (f : Front) (line : Nat) : Front :=
  match f.findSpill line with
  | some (e, sp) => { f with spill := SMap.put f.spill e { sp with drained := false, rewritten := false } }
  | none =>
    match f.find (line / 32) with
    | none => f
    | some (n, e) =>
      let e := { e with drained := setBit e.drained (line % 32) false, rewritten := setBit e.rewritten (line % 32) false }
      f.putEntry n { e with draining := e.drained != 0 }

/-- Changed nodes of drains that end without a journal copy wait for their write-back again (R309). -/
def Tree.putBack (t : Tree) (ds : List Drain) : Tree :=
  { t with dirty := (ds.flatMap (·.nodes)).foldl (fun l n => if l.any (fun x => x.level = n.level && x.idx = n.idx) then l else l ++ [n]) t.dirty }

/-- Drains in flight for which `p` holds end without a journal copy. -/
def State.cancelDrains (s : State) (k : SliceId) (p : Drain → Bool) : State :=
  let ds := (s.slice k).media.drains.filter p
  let ls := ds.flatMap (fun d => ((List.range 64).filter (fun i => d.lines.getLsbD i)).filterMap (s.lineOfPage k d.key))
  (s.updFront k (fun f => ls.foldl (fun f l => f.untakeLine l) f)).updSlice k (fun x => { x with
    tree := x.tree.putBack ds, media := { x.media with drains := x.media.drains.filter (fun d => !p d) } })

/-- A die fails (R187, R247): every logical block of it DEAD, its overlay entries cleared, its blocks retired, recorded in
the ledger, cause channel absent, and a record naming it. -/
def State.dieFailed (s : State) (k : SliceId) (j : ChanId) (d : DieId) : State :=
  let cd := j.val * 8 + d.val
  if (s.slice k).media.deadDies.contains cd then s
  else
    let s := s.updChan k j (fun c =>
      let c := c.updDie d (fun x => { x with failed := true, banks := [] })
      { c with arb := { c.arb with queue := c.arb.queue.filter (fun r => r.die != d), chosen := c.arb.chosen.filter (fun r => r.die != d) } })
    let s := s.cancelDrains k (fun d => decide (d.key / 2 ^ 24 = cd))
    let s := s.updMedia k (fun m =>
      let now := s.beat.events
      let m := (m.bmap.filter (fun e => decide (e.1 / 2 ^ 14 = cd))).foldl (fun m e => m.setMap now e.1 { e.2 with st := .dead, folding := false }) m
      let m := (m.overlay.filter (fun e => decide (e.1 / 2 ^ 24 = cd))).foldl (fun m e => m.clearOverlay now e.1) m
      let m := m.unmarkAll now (fun pk => pk / 2 ^ 24 == cd)
      let m := (m.blocks.filter (fun b => decide (b.1 / 16384 = cd) && b.2.use != .retired)).foldl (fun m b => m.retire now j.val d.val (b.1 % 16384) 7) m
      { m with
        deadDies := cd :: m.deadDies
        folds := m.folds.map (fun c => if c.1 = j.val then (c.1, c.2.filter (fun f => f.die != d)) else c)
        gcs := SMap.del m.gcs cd })
    let s := (s.putMediaRec (fun r => { r with failed := (16 * k.val + j.val, d.val) :: r.failed })).store
    let s := s.vendorAll .failure 0x0303 k.val j.val d.val 0 0 0
    (s.setReplace 2).updHealth k j.val

/-- The channel holds data: some block of it is in use, mapped or journalled (R98). -/
def Media.holdsData (m : Media) (j : Nat) : Bool :=
  m.blocks.any (fun b => decide (b.1 / 131072 = j) && b.2.holds) || m.overlay.any (fun e => decide (e.1 / 2 ^ 27 = j)) ||
    m.bmap.any (fun e => decide (e.1 / 2 ^ 17 = j) && e.2.st != .unmapped) || m.lostOver.any (fun r => r.2.2.getLsbD j)

/-- Mark a channel absent (R97, R98, R188, R472): P, OB and H recorded, its blocks LOST at their new places when it held
data, its overlay and map entries gone, its reads ended in poison. -/
def State.markAbsent (s : State) (k : SliceId) (j : ChanId) : State :=
  let mc := 16 * k.val + j.val
  if s.mediaRec.absent.any (fun a => a.mc = mc) then s
  else
    let gone := s.mediaRec.absent.filter (fun a => a.mc / 16 = k.val)
    let p : BitVec 16 := BitVec.ofNat 16 ((List.range 16).foldl (fun n i => if i = j.val || gone.any (fun a => a.mc % 16 = i) then n else n + 2 ^ i) 0)
    let n := popcount p
    let ob := s.mediaRec.h[k]
    let h' := if n = 0 then ob else ob + ceilDiv ob n
    let held := (s.slice k).media.holdsData j.val
    let s := s.cancelDrains k (fun d => decide (d.key / 2 ^ 27 = j.val))
    let s := s.putMediaRec (fun r => { r with absent := r.absent ++ [⟨mc, p, ob⟩], h := r.h.set k h' })
    let s := s.updMedia k (fun m =>
      let m := (m.overlay.filter (fun e => decide (e.1 / 2 ^ 27 = j.val))).foldl (fun m e => m.clearOverlay s.beat.events e.1) m
      let m := m.unmarkAll s.beat.events (fun pk => pk / 2 ^ 27 == j.val)
      let m := (m.bmap.filter (fun e => decide (e.1 / 2 ^ 17 = j.val))).foldl (fun m e => m.setMap s.beat.events e.1 MapEntry.blank) m
      { m with
      bmap := m.bmap.filter (fun e => decide (e.1 / 2 ^ 17 ≠ j.val))
      folds := SMap.del m.folds j.val
      gcs := m.gcs.filter (fun g => decide (g.1 / 8 ≠ j.val))
      lostOver := if held && n != 0 then (ob, h', p) :: m.lostOver else m.lostOver })
    let rs := (s.slice k).reads.filter (fun r => r.chan == j)
    let s := s.updChan k j (fun c => { c with up := false, retraining := false, arb := { c.arb with queue := [], chosen := none, owner := none, tail := [] } })
    let s := rs.foldl (fun s r => match r.why with
      | .host q => if r.done then s.dropRead k r else s.readPoison k r q none true
      | _ => s.dropRead k r) s
    let s := s.vendorAll .failure 0x0304 k.val j.val 0xFF 0 0 0
    let s := s.store
    ((s.setReplace 2).updHealthAll k).grantCredits

end Sys2Proof.Machine
end

