-- ==== Sys2Proof/Machine/Arbiter.lean ====
section
/-! DEFINITION. The channel arbiter: readiness, eligibility, the choice, grants, tenures, cut-offs, pauses and run windows
(chapter 06, R165, R173–R177, R294–R299, R414). -/

namespace Sys2Proof.Machine

/-! ## Readiness and eligibility -/

/-- A sequence that starts an array operation. -/
def SeqK.starts : SeqK → Bool
  | .write1 | .writeTag | .pageFinish | .resetBlock => true
  | _ => false

/-- A sequence that reads the array. -/
def SeqK.reads : SeqK → Bool
  | .read | .readSoft | .readTag => true
  | _ => false

/-! Times below are in quarter nanoseconds, as `Tenure.hold`. -/

/-- Latency from the slot that asks for a die-driven burst to its first transfer, Min and Max of Table 05-11; where the table gives no Min, 0. None:
the sequence's first burst is not die-driven. -/
def ChReq.latency (r : ChReq) (oneBit : Bool) : Option (Nat × Nat) :=
  match r.sq with
  | .read => some (if r.ts = 31 then (if oneBit then (280, 360) else (400, 500)) else if oneBit then (160, 220) else (240, 320))
  | .readSoft => some (if oneBit then (0, 480) else (520, 680))
  | .readTag => some (0, 240)
  | .status | .readTs | .readTemp | .mrr => some (0, 40)
  | .readId | .tracking => some (0, 80)
  | _ => none

/-- From a tenure's first slot to the first transfer of its present read, at the latest, a PAUSE included (Table 05-11). -/
def Tenure.firstData (t : Tenure) : Nat := t.base + (if t.paused then 210 else 10) + ((t.req.latency false).elim 0 (·.2))

/-- The previous read of a bank has begun its data transfer (R164): it has landed, or its latency has passed, `since` the present owner's first slot. -/
def Chan.readBegun (c : Chan) (d : DieId) (b since : Nat) : Bool :=
  c.tenures.all (fun t => !(t.req.sq.reads && t.req.die == d && t.req.block % 16 == b) || t.begun || decide (t.firstData ≤ t.lead + since))

/-- A raised request is ready (R192, R208), `since` the present owner's first slot. -/
def Chan.ready (c : Chan) (r : ChReq) (since : Nat) : Bool :=
  let die := c.dies[r.die]
  let b := SMap.get? die.banks (r.block % 16)
  if !c.talks r.die then false
  else match r.sq with
    | .write1 | .writeTag | .pageFinish | .resetBlock => b.isNone && decide (die.banks.length < 4)
    | .progLoad => b.isNone
    | .read | .readSoft | .readTag =>
      (if r.rq == .fr then !b.any (·.window) else b.isNone) && c.readBegun r.die (r.block % 16) since
    | _ => true

/-- Requesters in the order of R195. -/
def rqs : List Rq := [.fr, .fw, .fd, .sc, .cb, .mx]

/-- Budgets are suspended on a slice's channels (R312). -/
def State.suspended (s : State) (k : SliceId) : Bool := (s.slice k).pacer.suspended || s.power.flush != .idle

/-- Idle watermark test: the slice's dirty level is above it (R310). -/
def State.aboveIdle (s : State) (k : SliceId) : Bool := decide ((s.slice k).pacer.parm.idle * s.share < 64 * s.dirty k)

/-- A request ends the operation that its requester holds unfinished (R297): the READ_TS behind CB's READ, the CLEAR_ALERT behind MX's STATUS. -/
def ChReq.endsOp (r : ChReq) : Bool := match r.rq, r.sq with | .cb, .readTs => true | .mx, .clearAlert => true | _, _ => false

/-- A fold page of which a load has been granted already is in progress (R442). -/
def Chan.pageBegun (c : Chan) (r : ChReq) : Bool :=
  r.rq == .fd && (r.sq == .progLoad || r.sq == .pageFinish) &&
    decide (((c.arb.chosen.toList ++ c.arb.queue).filter (fun q => q.work == r.work && q.die == r.die && (q.sq == .progLoad || q.sq == .pageFinish))).length < 16)

/-- Budgeted work may begin (R298); in a slice that quiesces only drains while the dirty level is above the idle watermark (R414). -/
def State.budgetOpen (s : State) (k : SliceId) (j : ChanId) (r : ChReq) : Bool :=
  let c := s.chan k j
  let drain := match r.work with | .drain _ => true | _ => false
  if c.pace.splitBudget ≤ c.pace.spent then false
  else if (s.slice k).quiesce != 0 && !(r.rq == .fw && drain && s.aboveIdle k) then false
  else if (s.slice k).pacer.sprint && (r.rq == .sc || r.rq == .cb) &&
      decide (16 * (c.arb.weights[r.rq.ix]).toNat ≤ c.pace.lapSpent[r.rq.ix]) then false
  else true

/-- A request may take the channel now (R296–R299): always a foreground read; in the flush FW, MX and the rest of a fold page in progress, but no garbage
collection (R442); while budgets are suspended any; else mandatory work, the end of an operation that has begun, and budgeted work while its budget remains. -/
def State.mayRun (s : State) (k : SliceId) (j : ChanId) (r : ChReq) : Bool :=
  let c := s.chan k j
  if r.rq == .fr then true
  else if s.power.flush != .idle then (r.rq == .fw && !(match r.work with | .gc _ => true | _ => false)) || r.rq == .mx || c.pageBegun r
  else if s.suspended k || r.mandatory then true
  else (c.pace.opOpen.contains r.rq && r.endsOp) || s.budgetOpen k j r

/-- Eligibility of a requester on a channel (R298, R414; during the flush R442). -/
def State.eligible (s : State) (k : SliceId) (j : ChanId) (rq : Rq) : Bool :=
  let c := s.chan k j
  let mine := (c.arb.chosen.toList ++ c.arb.queue).filter (fun r => r.rq == rq)
  if rq == .fr then true
  else if s.power.flush != .idle then mine.any (s.mayRun k j)
  else if s.suspended k then !mine.isEmpty
  else c.pace.opOpen.contains rq || mine.any (fun r => r.mandatory || s.budgetOpen k j r)

/-! ## The choice (R195) -/

/-- The FR requests of a queue that are ready, in the order in which the decisions found them so. -/
def Chan.readied (c : Chan) (q : List ChReq) (since : Nat) : List ChReq :=
  let fr := q.filter (fun r => r.rq == .fr && c.ready r since)
  c.arb.readied.filter (fun r => fr.contains r) ++ fr.filter (fun r => !c.arb.readied.contains r)

/-- The request a requester presents, of those that may run: for FR the ready one whose class bound expires first, of equal ones the first to become ready; for
others the first in their own engine's order, which puts mandatory work ahead of budgeted work and keeps the order in which each was raised (R195, R296;
DESIGN CHOICE, log entry 98). -/
def Chan.present (c : Chan) (q : List ChReq) (since : Nat) (rq : Rq) : Option ChReq :=
  if rq == .fr then
    (c.readied q since).foldl (fun acc r => match acc with
      | none => some r
      | some a => if r.expiry < a.expiry then some r else some a) none
  else
    let mine := q.filter (fun r => r.rq == rq)
    ((mine.find? (·.mandatory)).orElse (fun _ => mine.head?)).filter (fun r => c.ready r since)

/-- The arbiter's choice among presented requests: requester with the highest credit, ties as R195 rule 2. -/
def bestOf (c : Chan) (cands : List (Rq × ChReq)) : Option ChReq :=
  (cands.foldl (fun (acc : Option (Rq × ChReq)) x =>
    match acc with
    | none => some x
    | some a =>
      let ca := c.arb.credits[a.1.ix]
      let cx := c.arb.credits[x.1.ix]
      let za := decide (c.arb.weights[a.1.ix] = 0)
      let zx := decide (c.arb.weights[x.1.ix] = 0)
      if ca < cx ∨ (ca = cx ∧ za = true ∧ zx = false) then some x else some a) none).map (·.2)

/-- arbitrate(channel) of R195. -/
def State.choose (s : State) (k : SliceId) (j : ChanId) (q : List ChReq) (since : Nat) : Option ChReq :=
  let c := s.chan k j
  let cands := rqs.filterMap (fun rq => if s.eligible k j rq then (c.present (q.filter (s.mayRun k j)) since rq).map (fun r => (rq, r)) else none)
  match cands.find? (fun x => x.1 == .fr) with
  | some (_, r) => if c.arb.lastGrant != some .fr then some r else bestOf c cands
  | none => bestOf c cands

/-- Remove the first occurrence of a request. -/
def removeReq (q : List ChReq) (r : ChReq) : List ChReq :=
  match q with
  | [] => []
  | x :: xs => if x = r then xs else x :: removeReq xs r

/-- ARBITRATION_DECISION (R193, R195): choose the next owner, so many quarter nanoseconds after the first slot of the present one; a choice not yet granted may
be displaced. -/
def execArbitrationDecision (k : SliceId) (x : DecideAt) (s : State) : Host.Outcome State Fault Refusal :=
  .next (
    let j := x.chan
    let a := (s.chan k j).arb
    let q := match a.chosen with | some r => r :: a.queue | none => a.queue
    let s := s.updChan k j (fun c => { c with arb := { c.arb with readied := c.readied q x.since } })
    match s.choose k j q x.since with
    | none => s
    | some w =>
      let moved := match a.chosen with | some r => decide (r ≠ w) | none => false
      let n := if moved then a.displaced + 1 else a.displaced
      let s := s.updChan k j (fun c => { c with arb := { c.arb with queue := removeReq q w, chosen := some w, displaced := n } })
      if moved then s.count k 0x706 else s)

/-! ## Grants (R194, R201, R207, R210) -/

/-- Hold of a sequence in quarter nanoseconds: its slots and its bursts (Table 06-1, R202). -/
def SeqK.hold : SeqK → Nat
  | .read => 410
  | .readSoft => 210
  | .write1 | .progLoad => 435
  | .writeTag => 95
  | .readTag => 70
  | .pageFinish => 530
  | .resetBlock | .clearAlert | .mrw => 10
  | .readTs | .readTemp | .mrr => 20
  | .status => 30
  | .readId => 50
  | .tracking => 90

/-- Slots that the bursts of a sequence occupy (R525, R526): 8 bytes a slot. -/
def SeqK.burstSlots : SeqK → Nat
  | .read => 40
  | .readSoft => 20
  | .write1 | .progLoad => 41
  | .writeTag => 7
  | .readTag => 6
  | .pageFinish => 48
  | .readTs | .readTemp | .mrr => 1
  | .status => 2
  | .readId => 4
  | .tracking => 8
  | _ => 0

/-- Command slots of a sequence (Tables 05-7, 05-8). A RESET_BLOCK carries MODE in `page`, an MRW its address in `page` and value in `sector`, an
MRR its address in `page`, a CLEAR_ALERT its causes in `sector`. -/
def ChReq.slots (r : ChReq) : List (BitVec 48) :=
  let d := r.die.val
  match r.sq with
  | .read => [slotRead 0x01 d r.block r.page r.sector r.first.toNat r.ts]
  | .readSoft => [slotRead 0x02 d r.block r.page r.sector r.first.toNat r.ts]
  | .readTag => [slotRead 0x03 d r.block r.page 0 0 0]
  | .write1 => [slotRead 0x04 d r.block r.page r.sector 0 0]
  | .writeTag => [slotRead 0x05 d r.block r.page 0 0 0]
  | .progLoad => [slotRead 0x06 d r.block r.page r.sector 0 0]
  | .pageFinish => [slotRead 0x06 d r.block r.page r.sector 0 0, slotRead 0x07 d r.block r.page 0 0 0]
  | .resetBlock => [slotReset d r.block (r.page = 1)]
  | .readTs => [slotReg 0x0D d r.ts 0]
  | .status => [slotPlain 0x0E d]
  | .clearAlert => [slotReg 0x0F d r.sector 0]
  | .readTemp => [slotPlain 0x10 d]
  | .readId => [slotPlain 0x11 d]
  | .mrw => [slotReg 0x12 d r.page r.sector]
  | .mrr => [slotReg 0x13 d r.page 0]
  | .tracking => [slotPlain 0x16 d]

/-- Payload bytes of the bursts that the device drives: a page finish sends its last sector and then its tag; a tag's contents take the beat at which
they are sent, and its check bits (R169, R176, R177, R223). -/
def ChReq.bursts (r : ChReq) (beat : BitVec 64) : List (List Byte) :=
  let tag := fun (c : List Byte) => pageTag (stampTag c beat.toNat)
  if r.payload.isEmpty then []
  else match r.sq with
    | .pageFinish => [r.payload.take 320, tag (r.payload.drop 320)]
    | .writeTag => [tag r.payload]
    | _ => [r.payload]

/-- Send the bursts of a request, each with its CRC-32C (R177). -/
def State.sendBursts (s : State) (k : SliceId) (j : ChanId) (r : ChReq) : State :=
  (r.bursts s.beat.now).foldl (fun s b => s.emit (.burst k j (burstBytes b))) s

/-- The array operation a request starts. -/
def ChReq.op (r : ChReq) : Option BankOp :=
  match r.sq with
  | .write1 | .writeTag => some (.write r.block)
  | .pageFinish => some (.program r.block r.page)
  | .resetBlock => some (.reset r.block (r.page = 1))
  | _ => none

/-- Requesters with an operation left open after this sequence (R297): CB between READ and READ_TS, MX between STATUS and CLEAR_ALERT. -/
def opAfter (r : ChReq) (now : List Rq) : List Rq :=
  match r.rq, r.sq with
  | .cb, .read => .cb :: now.filter (· != .cb)
  | .mx, .status => .mx :: now.filter (· != .mx)
  | .cb, .readTs => now.filter (· != .cb)
  | .mx, .clearAlert => now.filter (· != .mx)
  | _, _ => now

/-- Number of the split in force, counted from the slice's first lap (R292). -/
def Pacer.split (p : Pacer) : Nat := 4 * p.laps + p.ended

/-- What a tenure of a request is charged as its grant takes effect (R294): never one of FR, nor while budgets are suspended (R312). -/
def State.paidFor (s : State) (k : SliceId) (r : ChReq) (slots : Nat) : Option (Nat × Nat) :=
  if r.rq == .fr || s.suspended k then none else some ((s.slice k).pacer.split, slots)

/-- Charge slots to the split in force, in which the grant takes effect (R294). -/
def PaceCh.charge (p : PaceCh) (rq : Fin 6) (slots : Nat) : PaceCh :=
  { p with spent := p.spent + slots, lapSpent := p.lapSpent.set rq (p.lapSpent[rq] + slots) }

/-- The charge of a tenure whose debit has come to `slots` in place of the `paid` charged as it began (R294): the split of its grant bears the difference. In the
last split that ended, it is the excess that changes, and with it the deficit (R300). -/
def PaceCh.recharge (p : PaceCh) (rq : Fin 6) (split now paid slots : Nat) : PaceCh :=
  let p := if split / 4 = now / 4 then { p with lapSpent := p.lapSpent.set rq (p.lapSpent[rq] + slots - paid) } else p
  if split = now then { p with spent := p.spent + slots - paid }
  else if p.lastSplit.1 = split then
    let spent := p.lastSplit.2.1 + slots - paid
    let was := p.lastSplit.2.1 - p.lastSplit.2.2
    let is' := spent - p.lastSplit.2.2
    { p with
      lastSplit := (split, spent, p.lastSplit.2.2)
      deficit := min (p.deficit + is' - was) 65535
      overSum := p.overSum + BitVec.ofNat 48 is' - BitVec.ofNat 48 was }
  else p

/-- A tenure ends with its debit (R294, R317): the charge becomes the debit, and the slots are counted as mandatory or budgeted work. -/
def State.settleCharge (s : State) (k : SliceId) (j : ChanId) (t : Tenure) (slots : Nat) : State :=
  match t.paid with
  | none => s
  | some (split, paid) =>
    let s := s.updChan k j (fun c => { c with pace :=
      let p := c.pace.recharge t.req.rq.ix split (s.slice k).pacer.split paid slots
      { p with mandSum := if t.req.mandatory then p.mandSum + BitVec.ofNat 48 slots else p.mandSum } })
    s.count k (if t.req.mandatory then 0x403 else 0x402) slots

/-- Start of a sequence's first burst, at the earliest, from the start of its first slot (R194); none: it has no burst. A device-driven one starts
5 ns after its slot. -/
def ChReq.dqStart (r : ChReq) (oneBit pause : Bool) : Option Nat :=
  match r.latency oneBit with
  | some (lo, _) => some (lo + if pause then 60 else 10)
  | none => if r.payload.isEmpty then none else some 30

/-- End of a sequence's last burst, at the latest (R194); none: it has no burst. The hold counts the slots and the bursts. -/
def ChReq.dqEnd (r : ChReq) (oneBit pause : Bool) : Option Nat :=
  match r.latency oneBit with
  | some (_, hi) => some (r.sq.hold + hi + if pause then 210 else 0)
  | none => if r.payload.isEmpty then none else some r.sq.hold

/-- End of a sequence's last slot: that of a page finish's PROG_CONFIRM is 111.25 ns after its first (Sequence 05-2). -/
def Tenure.lastSlot (t : Tenure) : Nat := if t.locked then 445 else if t.paused then 20 else 10

/-- The block that a request names is in 1-bit mode. -/
def State.oneBitReq (s : State) (k : SliceId) (j : ChanId) (r : ChReq) : Bool :=
  decide (((s.slice k).media.block j.val r.die.val r.block).mode = 2)

/-- The chosen request's grant may take effect, `since` after the owner's first slot (R194, R200, R201, R209): the owner has issued its last slot; the
new first burst cannot begin before the end of any tenure's last burst plus tTA; no retry point is open; a PAUSE does not precede the end of the burst
that started the operation it pauses. -/
def State.grantable (s : State) (k : SliceId) (j : ChanId) (r : ChReq) (pause : Bool) (since : Nat) : Bool :=
  let c := s.chan k j
  let start := r.dqStart (s.oneBitReq k j r) pause
  c.ready r since && c.tenures.all (fun t => !t.retry) && c.arb.owner.all (fun t => decide (t.base + t.lastSlot ≤ since)) &&
    c.tenures.all (fun t =>
      let age := t.lead + since
      (match start, t.req.dqEnd (s.oneBitReq k j t.req) t.paused with
        | some b, some e => decide (t.base + e + 10 ≤ age + b)
        | _, _ => true) &&
      (!(pause && t.req.sq.starts && t.req.die == r.die && t.req.block % 16 == r.block % 16) ||
        decide ((t.req.dqEnd false false).getD 10 ≤ age)))

/-- A tenure begins: it takes the channel from the present owner, whose last burst may still be on DQ, and statistics follow (R194, R213). -/
def Arb.begin (a : Arb) (t : Tenure) (wait since : Nat) (late : Bool) : Arb :=
  let i := t.req.rq.ix
  let x := a.stats[i]
  let x := { x with
    grants := x.grants + 1
    waitSum := x.waitSum + BitVec.ofNat 48 wait
    waitMax := BitVec.ofNat 24 (max x.waitMax.toNat (min wait (2 ^ 24 - 1))) }
  { a with
    chosen := none
    tail := (a.tail ++ a.owner.toList).map (fun u => { u with lead := u.lead + since })
    owner := some t
    lastGrant := some t.req.rq
    stats := a.stats.set i x
    pauses := if t.paused then a.pauses + 1 else a.pauses
    lateStarts := if late then a.lateStarts + 1 else a.lateStarts }

/-- Events of a grant (R214), and the longest FR wait of the telemetry snapshot (Table 17-4). -/
def State.countGrant (s : State) (k : SliceId) (rq : Rq) (wait : Nat) (late : Bool) : State :=
  let s := (s.count k 0x700).count k (if rq == .fr then 0x701 else 0x702)
  let s := if rq == .fr then (s.count k 0x703 wait).updSlice k (fun x => { x with snap := { x.snap with frWait := max x.snap.frWait wait } }) else s
  if late then (s.count k 0x707).updSlice k (fun x => { x with snap := { x.snap with late := x.snap.late + 1 } }) else s

/-- A sequence is issued: a media read is from now on the one its fill compares commits with (R138) and may have begun late (R210); a sector read
counts against its block (R244); the first write of a journal block taken since its reset sets PROGRAM_BEAT and TEMP_MAX (R220); an MRW sets its register. -/
def State.issued (s : State) (k : SliceId) (j : ChanId) (r : ChReq) (late : Bool) : State :=
  let s := match r.work with
    | .read rid => s.updSlice k (fun x => { x with reads := x.reads.map (fun m =>
        if m.rid = rid then { m with touched := [], step := if late then 1 else m.step, late := m.late || late } else m) })
    | _ => s
  if r.sq == .mrw then s.updChan k j (·.updDie r.die (fun x => { x with mreg := x.mreg.set (r.page % 8) (BitVec.ofNat 8 r.sector) (Nat.mod_lt _ (by decide)) }))
  else if r.sq == .read || r.sq == .readSoft then s.bumpRead k j r.die.val r.block 1
  else if r.sq == .write1 || r.sq == .writeTag then
    let cd := j.val * 8 + r.die.val
    let band := ((s.chan k j).dies[r.die]).band
    s.updMedia k (fun m =>
      let jn := m.journal cd
      if jn.fresh.contains r.block then
        let m := { m with journals := SMap.put m.journals cd { jn with fresh := jn.fresh.filter (· != r.block) } }
        m.setBlock s.beat.events j.val r.die.val r.block
          { m.block j.val r.die.val r.block with beat := s.beat.now.setWidth 48, tempMax := band, untrusted := s.beat.epoch == .unfixed }
      else m)
  else s

/-- Command slots and bursts of a granted sequence go out, a PAUSE first where one is needed; a request with a burst is kept for WCRC (Table 05-14)
and the bank's operation starts. -/
def State.sendReq (s : State) (k : SliceId) (j : ChanId) (r : ChReq) (pause : Bool) : State :=
  let bank := r.block % 16
  let s := match pause, SMap.get? ((s.chan k j).dies[r.die]).banks bank with
    | true, some b => (s.setBank k j r.die bank (some { b with paused := true, since := (s.chan k j).now })).sendSlot k j r.die (slotBank 0x09 r.die.val bank) none
    | _, _ => s
  let s := r.slots.foldl (fun s w => s.sendSlot k j r.die w (some r)) s
  let s := s.sendBursts k j r
  let s := if r.payload.isEmpty then s else s.updChan k j (fun c =>
    let same := SMap.get? c.sent r.die.val = some r
    { c with sent := SMap.put c.sent r.die.val r, resent := if same then c.resent else SMap.del c.resent r.die.val })
  match r.op with
  | some op => s.setBank k j r.die bank (some ⟨op, false, false, false, 0, []⟩)
  | none => s

/-- A foreground read of a bank with a running operation begins with PAUSE (R207). -/
def Chan.pauseFor (c : Chan) (r : ChReq) : Bool :=
  r.rq == .fr && r.sq.reads && (SMap.get? (c.dies[r.die]).banks (r.block % 16)).any (fun b => !b.paused)

/-- The first READ of a foreground read's ladder would end later than 116.25 ns after it became ready (R210). -/
def State.lateFor (s : State) (k : SliceId) (r : ChReq) (wait : Nat) (pause : Bool) : Bool :=
  let first := r.rq == .fr && r.sq == .read && (match r.work with
    | .read rid => (s.readOf k rid).any (fun m => decide (m.step = 0))
    | _ => false)
  first && decide (1162 < (wait + 1 + (if pause then 1 else 0)) * 25)

/-- GRANT_EFFECT (R194): the chosen request's tenure begins after waiting `wait` slots, `since` quarter nanoseconds after the first slot of the present
owner. A foreground read pauses a busy bank (R207) and starts late under R210. -/
def execGrantEffect (k : SliceId) (j : ChanId) (g : GrantAt) (s : State) : Host.Outcome State Fault Refusal :=
  .next (
    match (s.chan k j).arb.chosen with
    | none => s
    | some r =>
      let pause := (s.chan k j).pauseFor r
      let late := s.lateFor k r g.wait pause
      let r := if late then { r with ts := 31 } else r
      if !s.grantable k j r pause g.since then s
      else
        let limit := (s.chan k j).arb.holdLimit
        let t : Tenure := ⟨r, pause, r.sq.hold + (if pause then 10 else 0), 0, r.sq == .pageFinish, 0, limit, r.rq == .fr, false, false, 0, false, false, none⟩
        let slots := min (ceilDiv t.hold 10) limit
        let t := { t with paid := s.paidFor k r slots }
        let s := s.updChan k j (fun c => { c.tick g.now with
          arb := c.arb.begin t g.wait g.since late
          pace := { (if t.paid.isSome then c.pace.charge r.rq.ix slots else c.pace) with opOpen := opAfter r c.pace.opOpen } })
        let s := s.countGrant k r.rq g.wait late
        (s.issued k j r late).sendReq k j r pause)

/-! ## The end of a tenure (R196) -/

/-- Lines of a drain in one sector that were Dirty or Partial: their codewords are retired (Table 17-2). -/
def drainRetired (m : Media) (r : ChReq) : Nat :=
  match r.work with
  | .drain key =>
    match m.drains.find? (fun d => d.key = key) with
    | some d => if d.rewrite then 0 else popcount (d.lines.extractLsb' (4 * r.sector) 4)
    | none => 0
  | _ => 0

/-- Debit of a tenure in slots (R196); two reads of one tenure have each a hold of their own (R202). -/
def Tenure.debit (t : Tenure) : Nat := ceilDiv t.hold 10 + ceilDiv t.held 10

/-- Debit an ended tenure, settle its charge, and count its burst slots. -/
def State.endTenure (s : State) (k : SliceId) (j : ChanId) (t : Tenure) : State :=
  let rq := t.req.rq
  let ret := if t.req.sq = .write1 && rq == .fw then 10 * drainRetired (s.slice k).media t.req else 0
  let s := s.updChan k j (fun c => { c with
    arb := { c.arb with
      credits := c.arb.credits.set rq.ix (max (c.arb.credits[rq.ix] - (t.debit : Int)) (-4096))
      stats := c.arb.stats.set rq.ix (let x := c.arb.stats[rq.ix]; { x with holdSum := x.holdSum + BitVec.ofNat 48 t.debit }) }
    alert := c.alert && !(t.req.sq == .clearAlert && c.dies.toList.all (fun d => !d.stWait) && c.arb.queue.all (fun r => r.sq != .clearAlert)) })
  -- a response that came ends a run of lost ones (R187)
  let s := if (t.req.latency false).isSome && !t.lost then s.updChan k j (·.updDie t.req.die (fun x => { x with lostInRow := 0 })) else s
  let s := s.settleCharge k j t t.debit
  if rq == .fr then s else ((s.acct k j 0 ret).acct k j 1 (t.req.sq.burstSlots - ret))

/-- Take the oldest tenure in force off a channel. -/
def Arb.pop (a : Arb) : Option (Tenure × Arb) :=
  match a.tail with
  | t :: ts => some (t, { a with tail := ts })
  | [] => a.owner.map (fun t => (t, { a with owner := none }))

/-- TENURE_END (R196): the oldest of the tenures in force ends. What it brought is discarded when its owner was reset (R204), and its request is raised
again (DESIGN CHOICE; log entry 79). A bank whose last read it was may resume (R208). -/
def execTenureEnd (k : SliceId) (j : ChanId) (s : State) : Host.Outcome State Fault Refusal :=
  .next (
    match (s.chan k j).arb.pop with
    | none => s
    | some (t, a) =>
      let a := if t.discard && !t.cut then { a with queue := t.req :: a.queue } else a
      let s := s.updChan k j (fun c => { c with arb := a })
      (if t.cut then s else s.endTenure k j t).resumeDue k j)

/-! ## What a page holds for its drain (R227 steps 1 and 2) -/

/-- What a drain needs of a line: fresh contents, poison, or nothing. -/
inductive Need where
  | none
  | fresh (data : Line) (poison : Bool)
  /-- Partial bytes over the resolved line -/
  | merge (data : Line) (mask : BitVec 64) (poison : Bool)
deriving DecidableEq, Repr

/-- What the front store and poison list hold of a line for its drain. -/
def Front.need (f : Front) (line : Nat) : Need :=
  if f.poison.contains line then .fresh 0 true
  else match f.look line with
    | .full x _ true => .fresh x.read x.poisoned
    | .partly x m _ => .merge x.data m x.poisoned
    | _ => .none

/-- Lines of a page that its drain would take: number within the page, line address. -/
def State.pageNeeds (s : State) (k : SliceId) (pk : Nat) : List (Nat × Nat) :=
  (List.range 64).filterMap (fun i =>
    match s.lineOfPage k pk i with
    | some l => if (s.slice k).front.need l = .none then none else some (i, l)
    | none => none)

/-- A fold is mandatory while it blocks a spill or poison-list drain (Table 09-1). -/
def State.foldMandatory (s : State) (k : SliceId) (key : Nat) : Bool :=
  let m := (s.slice k).media
  m.urgent.contains key && m.waiting.any (fun pk => (m.entriesOf key).any (fun e => ovSet e.1 == ovSet pk) && (s.pageNeeds k pk).any (fun n =>
    (s.slice k).front.poison.contains n.2 || ((s.slice k).front.findSpill n.2).isSome))

/-! ## Aborts (R180, Table 05-12) -/

/-- The channel controller can issue a slot: the channel is trained and not retraining (R188), and has its rail and its clock (R205). A slice on the backup clock,
or without its rail, has lost the PLL that makes it (DEDUCED; log entry 84). -/
def State.canIssue (s : State) (k : SliceId) (j : ChanId) : Bool :=
  (s.chan k j).up && !(s.chan k j).retraining && !(s.slice k).backupClk && s.channelRail k && s.sliceRail k

/-- The loads and the finish of the page that a fold member is programming, from its staged bytes (R176, R192). -/
def FoldMember.loads (f : FoldMember) (mand : Bool) : List ChReq :=
  (List.range 16).map (fun i =>
    let body := (f.staged.drop (320 * i)).take 320
    let pay := if i = 15 then body ++ f.staged.drop 5120 else body
    ⟨.fd, if i = 15 then .pageFinish else .progLoad, f.die, f.blk, f.page - 1, i, 0, 0, pay, .fold f.key, 0, mand⟩)

/-- A bank's page buffer is discarded: the page being loaded there is loaded again from its first sector, in the class that its fold has now (Table 05-12, R176,
R296). -/
def State.reloadPage (s : State) (k : SliceId) (j : ChanId) (d : DieId) (b : Nat) : State :=
  ((SMap.getD (s.slice k).media.folds j.val []).filter (fun f => f.die == d && f.blk % 16 == b && !f.staged.isEmpty)).foldl (fun s f =>
    (f.loads (s.foldMandatory k f.key)).foldl (fun s r => s.pushReq k j r) (s.dropWork k j (.fold f.key))) s

/-- The copy of a collection that was being written to a block ends; its page is copied again. -/
def Gc.drop (g : Gc) (blk : Nat) : Gc :=
  match g.copies.getLast? with
  | some c => if c.jblock = blk && !c.asked then { g with copies := g.copies.dropLast } else g
  | none => g

/-- A write to a block of the reserved area was aborted or failed: what it was part of is written again (R206). -/
def State.areaFailed (s : State) (k : SliceId) (j : ChanId) (d : DieId) (blk : Nat) : State :=
  if d.val ≠ 0 then s
  else s.updMedia k (fun m =>
    let m := if (m.ringBlocks j.val).contains blk then { m with copyBad := true } else m
    { m with ckpt := m.ckpt.map (fun r => if (m.ckptBlocks j.val r.area).contains blk then { r with bad := true } else r) })

/-- The write of a block by the journal writer, by garbage collection or to the reserved area was aborted: it is written again (R206, R230). -/
def State.writeAborted (s : State) (k : SliceId) (j : ChanId) (d : DieId) (blk : Nat) : State :=
  let cd := j.val * 8 + d.val
  let m := (s.slice k).media
  let s := (m.drains.filter (fun x => x.key / 2 ^ 24 == cd && x.jblock == blk)).foldl (fun s x =>
    (s.updMedia k (fun m => { m with drains := m.drains.map (fun y => if y.key = x.key then { y with aborted := true } else y) })).dropWork k j (.drain x.key)) s
  let s := match SMap.get? m.gcs cd with
    | some g => if g.drop blk = g then s
      else (s.updMedia k (fun m => { m with gcs := SMap.put m.gcs cd (g.drop blk) })).dropWork k j (.gc d.val)
    | none => s
  s.areaFailed k j d blk

/-- What an aborted array operation leaves (Table 05-12): a program's block is aborted and leaves its fold (R206); a reset's block is aborted; a write
is done again. -/
def State.opAborted (s : State) (k : SliceId) (j : ChanId) (d : DieId) : BankOp → State
  | .program b _ => match (SMap.getD (s.slice k).media.folds j.val []).find? (fun f => f.die == d && f.blk == b) with
    | some f => (s.dropWork k j (.fold f.key)).dropFold k j.val d.val f.key b true
    | none => s.updMedia k (fun m => m.setBlock s.beat.events j.val d.val b { m.block j.val d.val b with aborted := true })
  | .reset b _ => s.updMedia k (fun m => m.setBlock s.beat.events j.val d.val b { m.block j.val d.val b with aborted := true })
  | .write b => s.writeAborted k j d b

/-- ABORT to a bank, with its effects (Table 05-12): the bank is idle after it. While the channel can issue nothing it is kept for the end of its next training or
retrain, and the bank's operation goes on (R188, R205). A failed die is sent nothing (R187). -/
def State.abortBank (s : State) (k : SliceId) (j : ChanId) (d : DieId) (b : Nat) : State :=
  if ((s.chan k j).dies[d]).failed then s
  else if !s.canIssue k j then s.updChan k j (fun c => { c with aborts := c.aborts ++ [(d.val, b)] })
  else
    let s := s.sendSlot k j d (slotBank 0x0B d.val b) none
    match SMap.get? ((s.chan k j).dies[d]).banks b with
    | some x => (s.setBank k j d b none).opAborted k j d x.op
    | none => s.reloadPage k j d b

/-- The ABORTs kept while a channel could issue nothing (R205). -/
def State.sendAborts (s : State) (k : SliceId) (j : ChanId) : State :=
  (s.chan k j).aborts.foldl (fun s a => s.abortBank k j (fin8 a.1) a.2) (s.updChan k j (fun c => { c with aborts := [] }))

/-! ## Cut-offs (R203–R206) -/

/-- Cut off a tenure whose hold has come to `hold` (R203, R204): its debit and its charge are those of the hold; ABORT goes to its bank; a die-driven burst goes on
(Sequence 06-1); the engine has its sequence back and does it again; counted, and recorded at most once per channel in 65,536 beats. The record's SUB names
requester · 16 + die (DESIGN CHOICE; log entry 78). -/
def State.cutOff (s : State) (k : SliceId) (j : ChanId) (u : Tenure) (hold : Nat) : State :=
  let t := { u with hold := hold }
  let r := t.req
  let bank := r.block % 16
  let (write, sup) := match (s.chan k j).arb.lastCutRec with
    | some (b, n) => (decide (b + 65536 ≤ s.beat.events), n)
    | none => (true, 0)
  let s := s.updChan k j (fun c => { c with
    arb := { c.arb with
      owner := if c.arb.owner = some u then none else c.arb.owner
      tail := c.arb.tail.filter (· != u) ++ (if (r.latency false).isSome then [{ t with cut := true, retry := false }] else [])
      stats := c.arb.stats.set r.rq.ix (let x := c.arb.stats[r.rq.ix]; { x with cutoff := satInc x.cutoff })
      lockAbandoned := if t.locked then satInc c.arb.lockAbandoned else c.arb.lockAbandoned
      lastCutRec := if write then some (s.beat.events, 0) else c.arb.lastCutRec.map (fun l => (l.1, l.2 + 1))
      queue := if r.sq.starts || r.sq == .progLoad then c.arb.queue else r :: c.arb.queue }
    pace := { c.pace with opOpen := c.pace.opOpen.filter (· != r.rq) } })
  let s := s.count k 0x704
  let s := if t.locked then s.count k 0x705 else s
  let s := s.updSlice k (fun x => { x with snap := { x.snap with cut := x.snap.cut + 1 } })
  let s := if write then
      s.raise s.sliceIds .warning { s.mkRec .vendor 0x0305 k.val j.val (16 * r.rq.ix.val + r.die.val) 0 r.block bank with suppressed := BitVec.ofNat 16 (min sup 65535) }
    else s
  (s.endTenure k j t).abortBank k j r.die bank

/-- HOLD_LIMIT_CUTOFF (R203): the hold time reached the limit that the tenure was granted under (R198). -/
def execHoldLimitCutoff (k : SliceId) (j : ChanId) (s : State) : Host.Outcome State Fault Refusal :=
  .next (match (s.chan k j).arb.owner with
    | some t => s.cutOff k j t (10 * t.limit)
    | none => s)

/-- LOCK_OWNER_FAULT (R204): of the engine's tenures in force, a locked one, whose last burst may still be on DQ (R200), is cut off at once, `held` quarter
nanoseconds after its first slot; an unlocked one runs to its end and its result is discarded. -/
def execLockOwnerFault (k : SliceId) (x : OwnerFault) (s : State) : Host.Outcome State Fault Refusal :=
  .next (
    let mine := fun (t : Tenure) => t.req.rq.ix == x.rq && !t.cut
    let locked := (s.chan k x.chan).tenures.filter (fun t => mine t && t.locked)
    let s := s.updChan k x.chan (·.mapTenures (fun t => if mine t && !t.locked then { t with discard := true } else t))
    locked.foldl (fun s t => s.cutOff k x.chan t (min x.held t.hold)) s)

/-- A reset's reach covers the slice (R205): every unlocked tenure of its channels completes, and a locked one is cut off. -/
def State.endTenures (s : State) (k : SliceId) : State :=
  (List.finRange 16).foldl (fun s j =>
    let c := s.chan k j
    let s := s.updChan k j (fun c => { c with arb := { c.arb with tail := [], owner := none } })
    c.tenures.foldl (fun s t => if t.cut then s else if t.locked then s.cutOff k j t t.hold else s.endTenure k j t) s) s

/-! ## Paused banks (R207, R208) -/

/-- A foreground read of a bank is ready, raised or chosen (R207). -/
def Chan.frReady (c : Chan) (d : DieId) (b : Nat) : Bool :=
  (c.arb.chosen.toList ++ c.arb.queue).any (fun r => r.rq == .fr && r.die == d && r.block % 16 == b && c.ready r 0)

/-- BANK_RESUME (R207): RESUME to a paused bank once its last read has begun its burst, unless another FR read of it is ready or a retry point is open. -/
def execBankResume (k : SliceId) (j : ChanId) (d : DieId) (b : BankAt) (s : State) : Host.Outcome State Fault Refusal :=
  .next (
    let s := s.updChan k j (·.tick b.now)
    let c := s.chan k j
    match SMap.get? (c.dies[d]).banks b.bank.val with
    | some x =>
      if x.paused && c.talks d && !c.readHolds d b.bank.val && !c.frReady d b.bank.val then
        (s.setBank k j d b.bank.val (some (x.resume c.now false))).sendSlot k j d (slotBank 0x0A d.val b.bank.val) none
      else s
    | none => s)

/-- RUN_WINDOW_START (R208): paused for 3 µs within 4 µs; resumed, whether or not another FR read is ready, once its last read has begun its burst and the
retry point has closed. -/
def execRunWindowStart (k : SliceId) (j : ChanId) (d : DieId) (b : BankId) (now : Nat) (s : State) : Host.Outcome State Fault Refusal :=
  .next (
    let s := s.updChan k j (·.tick now)
    let c := s.chan k j
    match SMap.get? (c.dies[d]).banks b.val with
    | some x =>
      if x.paused && c.talks d && decide (12000 ≤ x.pausedFor c.now) then
        if c.readHolds d b.val then s.setBank k j d b.val (some { x with due := true }) else s.openWindow k j d b.val x
      else s
    | none => s)

/-- Length of a run window, quarter nanoseconds (Table 06-6). -/
def BankOp.window : BankOp → Nat
  | .program _ _ => 8000
  | .reset _ _ => 48000
  | .write _ => 2000

/-- Foreground reads of a bank that wait on the channel have waited for a run window (R208, R214). -/
def State.markWaited (s : State) (k : SliceId) (j : ChanId) (d : DieId) (b : Nat) : State :=
  let a := (s.chan k j).arb
  let rids := (a.chosen.toList ++ a.queue).filterMap (fun r => match r.work with
    | .read rid => if r.rq == .fr && r.die == d && r.block % 16 == b then some rid else none
    | _ => none)
  s.updSlice k (fun x => { x with reads := x.reads.map (fun m => if rids.contains m.rid then { m with waited := true } else m) })

/-- RUN_WINDOW_END (R208): the window of Table 06-6 has passed, so FR reads of the bank are ready again. -/
def execRunWindowEnd (k : SliceId) (j : ChanId) (d : DieId) (b : BankId) (now : Nat) (s : State) : Host.Outcome State Fault Refusal :=
  .next (
    let s := s.updChan k j (·.tick now)
    match SMap.get? ((s.chan k j).dies[d]).banks b.val with
    | some x =>
      if x.window && decide (x.since + x.op.window ≤ (s.chan k j).now) then (s.markWaited k j d b.val).setBank k j d b.val (some { x with window := false }) else s
    | none => s)

/-- ARB_PARAM_ARRIVE (R198): the hold limit applies to later grants; the weights wait for the next refill. -/
def execArbParamArrive (k : SliceId) (j : ChanId) (s : State) : Host.Outcome State Fault Refusal :=
  .next (s.updChan k j (fun c => match c.arb.nextWeights with
    | some (w, h) => { c with arb := { c.arb with nextWeights := none, armed := some w, holdLimit := h } }
    | none => c))

/-- Refill of one arbiter at a beat (R196, R198): armed weights first, then credit + weight capped at twice the weight. -/
def Arb.refill (a : Arb) : Arb :=
  let w := match a.armed with | some w => w | none => a.weights
  { a with weights := w, armed := none, credits := Vector.ofFn (fun i : Fin 6 => min (a.credits[i] + ((w[i]).toNat : Int)) (2 * ((w[i]).toNat : Int))) }

end Sys2Proof.Machine
end

