-- ==== Sys2Proof/Machine/Cxl.lean ====
section
/-! DEFINITION. CXL.mem requests from acceptance to the owning slice, and the commands of the SRAM and of the Relay
(R24–R29, R33, R47, R48, R66, R88–R107, R121–R147, R150, R157, R216, R352, R562). -/

namespace Sys2Proof.Machine

/-! ## Ways across the package (R22–R25) -/

/-- A completion that crossed the Relay: its flit is counted where it is received (Table 17-1). -/
def State.countReturn (s : State) (p own : SliceId) : State := if p = own then s else s.count p 0x600

/-! ## Results decided at ingress (R562) -/

/-- Complete at ingress within the local hit and full-line write figures. -/
def State.ingressDone (s : State) (r : Req) (poison : Bool) : State :=
  s.completeCxl r 0 poison (if r.write then 29000 else 27000)

/-- A request to an unreachable slice (R25): a read returns poison, a write is recorded as lost. -/
def State.unreachable (s : State) (r : Req) (region : Nat) : State :=
  let s := if r.write then s.vendorOne r.port .failure 0x0103 0xFF 0xFF 0xFF r.dpa 1 region else s
  s.ingressDone r (!r.write)

/-- A failed ingress check (Table 03-3, R89). An unmapped granule has no region: 0xFFFF. The record's UNIT holds
UNAVAIL_CAUSE for check 3 (log entry 15). -/
def State.checkFailed (s : State) (r : Req) (c region cause : Nat) : State :=
  let s := s.count r.port 0x106
  let s := if c = 3 && r.write then s.vendorOne r.port .failure 0x0103 0xFF cause 0xFF r.dpa 2 region
    else s.vendorLimited r.port .warning 0x0102 (c * 65536 + region) 0xFF (if c = 3 then cause else 0xFF) r.dpa c region
  s.ingressDone r (!r.write && c != 4)

/-- The request goes this way from now on: a detour adds its 11 ns once (R25, Table 08-10). -/
def Req.takeWay (r : Req) (via : Option SliceId) : Req :=
  { r with hop := via, extra := r.extra + (if via.isSome && r.hop.isNone then 11000 else 0) }

/-- A request of slice k crosses the relay link of a and b. -/
def Req.crosses (r : Req) (k a b : SliceId) : Bool :=
  let on := fun (x y : SliceId) => (x == a && y == b) || (x == b && y == a)
  match r.hop with
  | none => on r.port k
  | some c => on r.port c || on c k

/-- Change the requests of the ports in flight at their owning slice: held for a rebuild, or reading the medium. -/
def Slice.mapReqs (x : Slice) (f : Req → Req) : Slice :=
  { x with
    heldReqs := x.heldReqs.map (fun h => { h with req := f h.req })
    reads := x.reads.map (fun rd => match rd.why with | .host r => if rd.done then rd else { rd with why := .host (f r) } | _ => rd) }

/-- Add a delay of Table 08-10 to the requests in flight over a relay link: which flits a replay or a retrain holds is open, so it is added to the bound of each
(DEDUCED from "at most"; log entry 100). -/
def State.delayLink (s : State) (a b : SliceId) (ps : Nat) : State :=
  s.sliceIds.foldl (fun s k => s.updSlice k (·.mapReqs (fun r => if r.crosses k a b then { r with extra := r.extra + ps } else r))) s

/-- The traffic to slice k takes the ways that there are now: a request in flight that has none is an unreachable one, and one whose link has failed goes by the
detour (R25, R466). -/
def State.rerouteTo (s : State) (k : SliceId) : State :=
  let lost := fun (p : Port) => p != k && (s.way p k).isNone
  let turned := fun (s : State) (r : Req) => match s.way r.port k with
    | some (some c) => if r.hop = some c then s else (s.count c 0x606).count c 0x600
    | _ => s
  let x := s.slice k
  let s := (x.heldReqs.map (·.req) ++ x.reads.filterMap (fun rd => match rd.why with | .host r => if rd.done then none else some r | _ => none)).foldl turned s
  let s := s.updSlice k (·.mapReqs (fun r => match s.way r.port k with | some via => if r.port = k then r else r.takeWay via | none => r))
  let s := s.updSlice k (fun x => { x with heldReqs := x.heldReqs.filter (fun h => !lost h.req.port) })
  let s := (x.heldReqs.filter (fun h => lost h.req.port)).foldl (fun s h => s.unreachable h.req h.region) s
  x.reads.foldl (fun s rd => match rd.why with
    | .host r => if !rd.done && lost r.port then (s.dropRead k rd).unreachable r rd.region else s
    | _ => s) s

/-- The Relay has changed: a link has failed, or the slice that carried a detour is gone. -/
def State.reroute (s : State) : State := s.sliceIds.foldl (fun s k => s.rerouteTo k) s

/-! ## At the owning slice -/

/-- The read of the words that a write changes only in part, for the merge (Table 04-6): an uncorrectable one makes a Clean line Invalid, so that the write finds
it so, and poisons a Dirty or Partial one (R147). -/
def State.mergeRead (s : State) (k : SliceId) (r : Req) : State :=
  match s.sramRead k (r.dpa / 64) (mergedWord r.be) r.errs with
  | (none, s) => s
  | (some i, s) => s.lineBad k (some r.port) (r.dpa / 64) i

/-- Write at the owning slice (stages 6 and 7): commit, then the completion. -/
def State.ownerWrite (s : State) (k : SliceId) (r : Req) (home : Home) (region : Nat) : State :=
  let whole := (List.range 8).all (fun w => let b := r.be.extractLsb' (8 * w) 8; b = 0 || b = 0xFF)
  let bound := if whole then boundFor r k 29000 40000 else boundFor r k 35000 46000
  let s := match home with
    | .nowhere => s.vendorOne r.port .failure 0x0103 k.val 0xFF 0xFF r.dpa 3 region
    | _ => (s.mergeRead k r).commitLine k (some r.port) (r.dpa / 64) r.be r.data r.poison
  (s.countReturn r.port k).completeCxl r 0 false bound

/-- Record of an unverifiable node: at most once per node in 65,536 beats (R352). -/
def State.unverRecord (s : State) (k : SliceId) (p : Port) (dpa level idx : Nat) : State :=
  let recent := (s.slice k).tree.unverRec.any (fun n => n.1 = level && n.2.1 = idx && decide (s.beat.events < n.2.2 + 65536))
  if recent then s
  else
    let s := s.vendorOne p .failure 0x0502 k.val 0xFF 0xFF dpa level idx
    s.updSlice k (fun x => { x with tree := { x.tree with
      unverRec := (level, idx, s.beat.events) :: x.tree.unverRec.filter (fun n => !(n.1 = level && n.2.1 = idx)) } })

/-- A tree node that a Sealed line needs, that is not held, and whose place on the medium is lost (R217, R352). -/
def State.lostNode (s : State) (k : SliceId) (line : Nat) : Option (Nat × Nat) :=
  match s.lineSeal line with
  | none => none
  | some i => [(1, i / 8), (0, i)].find? (fun n => (s.nodeLine k n.1 n.2).isNone && (match s.lineSource k (treeLine k.val n.1 n.2) with
    | some (.at _, .media _ _ _) | some (_, .zero) => false
    | _ => true))

/-- Read that misses at the owning slice: zero, poison, or a media read (R217, R434). -/
def State.ownerMiss (s : State) (k : SliceId) (r : Req) (region : Nat) (d : Desc) : State :=
  let line := r.dpa / 64
  let s := s.count k 0x201
  let bound := if d.patient then 4000000 else 480000
  match s.lineSource k line with
  | none => s.completeCxl r 0 true bound
  | some (_, .zero) =>
    match (s.slice k).front.look line with
    | .partly x m _ =>
      let out := mergeBytes 0 x.read m
      let s := s.completeCxl r (if x.poisoned then 0 else out) x.poisoned bound
      s.updFront k (·.mergeBack s.beat.now line out x.poisoned)
    | _ => s.completeCxl r 0 false bound
  | some (_, .poison) =>
    let pl := match s.lineHome line with | some (.at p, _) => p | _ => placeOf k.val 0
    let s := s.mediaRecord (some r.port) r.dpa k.val (16 * k.val + pl.chan) pl.die pl.bank 0
    s.completeCxl r 0 true bound
  | some (h, .media oneBit block page) =>
    match h with
    | .at p =>
      let s := match s.lineSeal line with
        | some i => (s.readNode k 1 (i / 8) (r.errs.drop 8)).readNode k 0 i (r.errs.drop 16)
        | none => s
      let lost := if d.mode == .sealed then s.lostNode k line else none
      let s := match lost with | some (level, idx) => s.addUnver k level idx | none => s
      match (match lost with | some n => some n | none => s.unverNode k line) with
      | some (level, idx) => ((s.unverRecord k r.port r.dpa level idx).count k 0x508).completeCxl r 0 true bound
      | none => s.raiseRead k (.host r) line region d p oneBit block page
    | _ => s.completeCxl r 0 true bound

/-- Read at the owning slice (R122, R147, R352): unverifiable, poison list, hit, or miss. -/
def State.ownerRead (s : State) (k : SliceId) (r : Req) (home : Home) (region : Nat) (d : Desc) : State :=
  let line := r.dpa / 64
  let s := s.countReturn r.port k
  let hit := boundFor r k 27000 38000
  match s.unverNode k line with
  | some (level, idx) => ((s.unverRecord k r.port r.dpa level idx).count k 0x508).completeCxl r 0 true hit
  | none =>
    if home = .nowhere then
      (s.mediaRecord (some r.port) r.dpa k.val k.val 0 0 0).completeCxl r 0 true hit
    else if (s.slice k).front.poison.contains line then (s.count k 0x200).completeCxl r 0 true hit
    else
      match (s.slice k).front.look line with
      | .miss => s.ownerMiss k r region d
      | .full _ _ dirty =>
        let (gone, s) := s.sramRead k line (fun _ => true) r.errs
        -- every hit touches its way (R124)
        let s := s.updFront k (·.touchLine line)
        match gone with
        | some i =>
          let s := s.lineBad k (some r.port) line i
          if dirty then (s.count k 0x200).completeCxl r 0 true hit else s.ownerMiss k r region d
        | none =>
          let (data, bad) := match (s.slice k).front.look line with | .full x _ _ => (x.read, x.poisoned) | _ => (0, true)
          (s.count k 0x200).completeCxl r (if bad then 0 else data) bad hit
      | .partly _ _ _ =>
        match s.sramRead k line (fun _ => true) r.errs with
        | (some i, s) => ((s.lineBad k (some r.port) line i).count k 0x200).completeCxl r 0 true hit
        | (none, s) => s.ownerMiss k r region d

/-- A write whose commit finds no frame and no spill entry waits for one: R126 bounds the writes so that a store never fills, but a lost slice returns with the
entries it kept (DESIGN CHOICE; log entry 69). -/
def State.mustWait (s : State) (k : SliceId) (r : Req) (home : Home) : Bool :=
  r.write && home != .nowhere && !((s.slice k).front.poison.contains (r.dpa / 64) && r.be != BitVec.allOnes 64) && !s.roomFor k (r.dpa / 64)

/-- A request to a directory set that was being rebuilt when it came: counted, and at most 400 ns late (R150, Table 08-10). -/
def State.setWait (s : State) (k : SliceId) (r : Req) : Req × State :=
  match (s.slice k).front.rebuiltSet with
  | some (set, n + 1) =>
    if setOf s.beat.salt (r.dpa / 2048) = set then
      ({ r with extra := r.extra + 400000 }, (s.updFront k (fun f => { f with rebuiltSet := if n = 0 then none else some (set, n) })).count k 0x209)
    else (r, s)
  | _ => (r, s)

/-- A request arrives at its owning slice. -/
def State.arrive (s : State) (h : HeldReq) : State :=
  let pl := s.prism h.desc h.unit h.req.dpa
  let k := fin8 pl.slice
  let (req, s) := s.setWait k h.req
  let h := { h with req := req }
  let home := substitute s.mediaRec.absent 17 pl
  if s.mustWait k h.req home then s.updSlice k (fun x => { x with heldReqs := x.heldReqs ++ [h] })
  else if h.req.write then s.ownerWrite k h.req home h.region else s.ownerRead k h.req home h.region h.desc

/-- Route a request that passed its checks (stages 4 and 5): over the Relay, by a detour, held while the owner rebuilds,
or unreachable. -/
def State.route (s : State) (h : HeldReq) : State :=
  let own := fin8 (s.prism h.desc h.unit h.req.dpa).slice
  let k := h.req.port
  match s.way k own with
  | none => s.unreachable h.req h.region
  | some via =>
    let s := if own = k then s else ((s.count k 0x604).count own 0x605).count own 0x600
    let s := match via with | some c => (s.count c 0x606).count c 0x600 | none => s
    let h := { h with req := h.req.takeWay via }
    -- the 3.2 ms of a directory rebuild (R157, Table 08-10)
    if (s.slice own).st == .working && !(s.slice own).heldReqs.isEmpty then s.updSlice own (fun x => { x with heldReqs := x.heldReqs ++ [h] })
    else if (s.slice own).st == .rebuilding then
      let h := { h with req := { h.req with extra := h.req.extra + 3200000000 } }
      s.updSlice own (fun x => { x with heldReqs := x.heldReqs ++ [h] })
    else s.arrive h

/-- Requests that waited at a working slice are taken up again, in order. -/
def State.retryHeld (s : State) (k : SliceId) : State :=
  if (s.slice k).st != .working || (s.slice k).heldReqs.isEmpty then s
  else
    let held := (s.slice k).heldReqs
    held.foldl (fun s h => s.arrive h) (s.updSlice k (fun x => { x with heldReqs := [] }))

/-! ## Ingress (stages 1 to 3) -/

/-- Check 2 to 5 with the descriptor the lookup gave, then route. -/
def State.checked (s : State) (r : Req) (region : Nat) (d : Desc) (unit : Nat) : State :=
  match s.ingressCheck d r.port r.write with
  | 0 => s.route ⟨r, region, d, unit⟩
  | c => s.checkFailed r c region d.cause.toNat

/-- Granule, descriptor lookup and checks of one request (R88, R101, R104, R105). A miss starts the one fill, which stalls the pipeline: every
request waits until it lands (R29). While a pinned entry is refilled, a request that misses waits for it (R102), and so does every request behind it. -/
def State.ingress (s : State) (r : Req) (de : DescErr) : State :=
  let k : SliceId := r.port
  let x := s.slice k
  let wait := fun (s : State) => s.updSlice k (fun x => { x with waiting := x.waiting ++ [{ r with extra := r.extra + 24000 }] })
  if x.fill.any (fun f => !f.refill) || !x.waiting.isEmpty then wait s
  else match SMap.get? s.index (r.dpa / 2 ^ 28) with
  | none => s.checkFailed r 1 0xFFFF 0
  | some e =>
    let s := s.count k 0x107
    let miss := fun (s : State) (pinned : Bool) => if x.fill.isSome then wait s else wait ((s.count k 0x108).startFill k e.region pinned)
    if !x.cacheOn then
      match SMap.get? s.desc e.region with
      | some d => (s.count k 0x108).checked { r with extra := r.extra + 24000 } e.region d e.unitBase
      | none => s.checkFailed r 1 0xFFFF 0
    else
      match x.cacheFind e.region with
      | none => miss s false
      | some (n, c) =>
        match de, c.desc with
        | .none, some d => (s.updSlice k (·.cacheTouch n)).checked r e.region d e.unitBase
        | .oneBit, some d => ((s.count k 0x109).updSlice k (·.cacheTouch n)).checked r e.region d e.unitBase
        | _, _ => miss ((s.count k 0x109).updSlice k (fun x => { x with cache := SMap.del x.cache n })) false

/-- Translate a host physical address with the head's committed decoders (R45; DPA bases as log entry 9). -/
def Head.decode (h : Head) (hpa : Nat) : Option Nat :=
  (decBases h.dec.toList 0).foldl (fun acc (d, base) =>
    match acc with
    | some a => some a
    | none =>
      if d.committed && decide (d.base ≤ hpa) && decide (hpa < d.base + d.size) then
        let off := hpa - d.base
        some (base + d.skip + (off / (d.gran * d.ways)) * d.gran + off % d.gran)
      else none) none

/-- The port accepts a request now: a link, a credit, and no condition that stops acceptance (R62, R63, R436, R441). -/
def State.accepts (s : State) (p : Port) (write : Bool) : Bool :=
  let h := s.head p
  s.present p && h.enabled && h.held == 0 && h.link.isSome && !s.power.sramLoss &&
    (s.power.flush == .idle || s.power.flush == .window) && h.ideMem.st != .insecure &&
    (!s.ideRequired p || h.ideMem.st == .secure) && decide (0 < (if write then h.credD else h.credR))

/-- Traffic brings a link that is in L1 back to L0 (Table 02-1). -/
def Link.wake (l : Link) : Link := { l with l1 := false }

/-- Accept a request: take its credit and number, count it, decode it and check it (R47, R66, R88). -/
def State.request (s : State) (p : Port) (hpa : Nat) (r : Req) (de : DescErr) : State :=
  if !s.accepts p r.write then s
  else
    let f68 := (s.head p).link.any (fun l => l.flit == .f68 && decide (l.rate ≤ 32))
    let r := { r with id := s.nextId, port := p, extra := if f68 then 7000 else 0 }
    let s := { s with nextId := s.nextId + 1 }
    let s := s.updHead p (fun h => if r.write then { h with credD := h.credD - 1, inflight := r.id :: h.inflight, link := h.link.map Link.wake }
      else { h with credR := h.credR - 1, inflight := r.id :: h.inflight, link := h.link.map Link.wake })
    let s := s.count p (if r.write then 0x101 else 0x100)
    let s := if r.write && r.be != BitVec.allOnes 64 then s.count p 0x102 else s
    let s :=
      if !s.hasData p then (s.count p 0x105).ingressDone r (!r.write)
      else match (s.head p).decode hpa with
        | none =>
          let s := s.count p 0x104
          let s := s.vendorLimited p .warning 0x0101 0 0xFF 0xFF hpa 0 0
          s.ingressDone r (!r.write)
        | some dpa => s.ingress { r with dpa := dpa / 64 * 64 } de
    s.grantCredits

/-- CXL_MEM_WRITE (R27, R28, R129): the operand gives the bit errors of the SRAM words that its merge reads. -/
def execCxlMemWrite (p : Port) (hpa : Nat) (be : BitVec 64) (data : Line) (poison : Bool) (e : WriteErrs) (s : State) :
    Host.Outcome State Fault Refusal :=
  .next (s.request p hpa ⟨0, p, true, 0, be, data, poison, e.words, 0, none, 0⟩ e.desc)

/-- CXL_MEM_READ (R33): the operand gives the bit errors of the SRAM words it reads: the line's, and in a Sealed region its leaf-parent's and its leaf's. -/
def execCxlMemRead (p : Port) (hpa : Nat) (r : HostRead) (de : DescErr) (s : State) : Host.Outcome State Fault Refusal :=
  .next (s.request p hpa ⟨0, p, false, 0, 0, 0, false, r.errs, 0, none, s.beat.events * 1000000 + r.ps⟩ de)

/-- DESCRIPTOR_FILL_LAND (R101, R106): a marked fill lands with its entry invalid, and the refill of an entry whose descriptor still has PIN set starts again at
once (R102); else the entry chosen at the miss takes the descriptor, the next pinned entry is refilled, and the requests that waited repeat their lookups in
order, the miss adding its 24 ns once (R9, Table 08-10). -/
def execDescriptorFillLand (k : SliceId) (s : State) : Host.Outcome State Fault Refusal :=
  .next (match (s.slice k).fill with
    | none => s
    | some f =>
      let s := s.updSlice k (fun x => { x with fill := none })
      if f.marked && f.refill && (SMap.get? s.desc f.region).any (fun (d : Desc) => d.pin) then s.startFill k f.region true
      else
        let s := if f.marked || f.desc.isNone then s else s.updSlice k (·.cacheLoad f.entry f.region f.desc)
        let s := match (s.slice k).refills with
          | [] => s
          | r :: rest =>
            let s := s.updSlice k (fun x => { x with refills := rest })
            if (SMap.get? s.desc r).any (fun (d : Desc) => d.pin) then s.startFill k r true else s
        let ws := (s.slice k).waiting
        let s := s.updSlice k (fun x => { x with waiting := [] })
        (ws.foldl (fun s q => s.ingress q .none |>.updSlice k (fun x =>
          { x with waiting := x.waiting.map (fun w => if w.id = q.id then { w with extra := q.extra } else w) })) s).grantCredits)

/-! ## The Relay -/

/-- RELAY_FEC_FAILURE (R24): a flit from a is replayed; counted where it is received, with the flits corrected there since (Table 17-1, 0x601). The requests
in flight over the link meet at most 12 ns. -/
def execRelayFecFailure (a : SliceId) (f : FlitLost) (s : State) : Host.Outcome State Fault Refusal :=
  .next (if a ≠ f.dst && s.present a && s.present f.dst then
      (((s.count f.dst 0x601 f.corrected).count f.dst 0x602).addError 7).delayLink a f.dst 12000
    else s)

/-- RELAY_RETRAIN (R24, R25): counted at both ends, it holds the link's traffic for at most 2 µs; the third failure in a row marks the link failed, and what it
carried takes the detour or, without one, is unreachable. -/
def execRelayRetrain (a b : SliceId) (ok : Bool) (s : State) : Host.Outcome State Fault Refusal :=
  .next (if a = b || !s.present a || !s.present b then s
    else
      let i := s.linkIx a b
      let s := ((s.count a 0x603).count b 0x603).delayLink a b 2000000
      if ok then { s with health := { s.health with linkFails := SMap.del s.health.linkFails i } }
      else
        let n := SMap.getD s.health.linkFails i 0 + 1
        let s := { s with health := { s.health with linkFails := SMap.put s.health.linkFails i n } }
        if n = 3 && s.linkUp a b then
          let s := { s with health := { s.health with links := setBit s.health.links i true } }
          let d := match s.detour a b with | some c => c.val | none => 0xFF
          (s.vendorAll .warning 0x0601 0xFF i 0xFF 0 d 0).reroute.grantCredits
        else s)

end Sys2Proof.Machine
end

