-- ==== Sys2Proof/Machine/Journal.lean ====
section
/-! DEFINITION. What is written to the media: encodings, the counter tree's write side, the journal and its drains, garbage
collection, and the map journal (chapter 07, R126, R127, R136, R319–R335, R345). -/

namespace Sys2Proof.Machine

/-! ## Encodings (R319–R323, R328) -/

/-- Key that lines of a region are written under (R320, R345): identifier, key, MAC key; none while it is not Loaded. -/
def State.writeKey (s : State) (d : Desc) : Option (Nat × BitVec 512 × BitVec 256) :=
  if d.mode == .clear then some (0, 0, checkKeyOf s.fused.rootKey)
  else
    let id := if d.st == .rekeying then d.newKey else d.keyId
    match SMap.get? s.keys id with
    | some k => if k.st = 1 then some (id, k.key, k.mac) else none
    | none => none

/-- Codeword of a data line under its region's key, or an all-zero codeword where no region holds it. -/
def State.sealLine (s : State) (line : Nat) (data : Line) (poison : Bool) (major minor : Nat) : BitVec 640 :=
  match s.regionAt (line * 64) with
  | none => cwEncode 0
  | some (_, d, _) =>
    match s.writeKey d with
    | none => cwEncode 0
    | some (id, key, mac) =>
      let stored := if d.mode == .clear then data else xtsLine false key (xtsTweak line minor major) data
      cwEncode (cwInfo stored (lineTag mac stored line major minor poison id d.mode.num) (BitVec.ofNat 8 minor) poison)

/-- Codeword of a tree node under a parent counter (R328); of a node that is lost, poisoned (R147, R352). -/
def State.nodeCodeword (s : State) (k : SliceId) (level idx : Nat) (node : Option Line) (parent : BitVec 64) : BitVec 640 :=
  let n := node.getD 0
  cwEncode (cwInfo n (nodeTag (treeKeyOf s.fused.rootKey k) n level idx parent k) 0 node.isNone)

/-- A data line of a Sealed region. -/
def State.lineSealed (s : State) (line : Nat) : Bool :=
  match s.regionAt (line * 64) with
  | some (_, d, _) => d.mode == .sealed
  | none => false

/-- Codeword of one line of a journal page with the page's SEQ: Clear and Cipher lines take SEQ[7:0] as minor (R323). -/
def State.encodePart (s : State) (seq : BitVec 48) (p : DrainPart) : BitVec 640 :=
  match p with
  | .stored cw => cw
  | .fresh line data poison major minor =>
    if s.lineSealed line then s.sealLine line data poison major minor else s.sealLine line data poison 0 (seq.toNat % 256)

/-! ## Tree nodes (R309, R330, R332) -/

/-- A node as it stands: in the front store, or in table SRAM for the pinned levels. -/
def State.nodeNow (s : State) (k : SliceId) (level idx : Nat) : Option Line :=
  if 2 ≤ level then some (SMap.getD (s.slice k).tree.pinned (level * 2 ^ 26 + idx) 0) else s.nodeLine k level idx

/-- Note a node's first change (R309). -/
def State.nodeChanged (s : State) (k : SliceId) (level idx : Nat) : State :=
  s.updSlice k (fun x =>
    if x.tree.dirty.any (fun n => n.level = level && n.idx = idx) then x
    else { x with tree := { x.tree with dirty := x.tree.dirty ++ [⟨level, idx, s.beat.events, false⟩] } })

/-- Commit a changed node: front store for leaves and leaf-parents, table SRAM above. -/
def State.putNode (s : State) (k : SliceId) (level idx : Nat) (n : Line) : State :=
  let s := if 2 ≤ level then s.updSlice k (fun x => { x with tree := { x.tree with pinned := SMap.put x.tree.pinned (level * 2 ^ 26 + idx) n } })
    else s.commitLine k none (treeLine k.val level idx) (BitVec.allOnes 64) n false
  s.nodeChanged k level idx

/-- Replace entry e of a node of 64-bit entries. -/
def setEntry (n : Line) (e : Nat) (v : BitVec 64) : Line :=
  (n &&& ~~~(BitVec.ofNat 512 ((2 ^ 64 - 1) * 2 ^ (64 * e)))) ||| (v.setWidth 512 <<< (64 * e))

/-- Replace minor i of a leaf. -/
def setMinor (n : Line) (i : Nat) (v : Nat) : Line :=
  (n &&& ~~~(BitVec.ofNat 512 (0xFF * 2 ^ (8 * i)))) ||| (BitVec.ofNat 512 (v % 256 * 2 ^ (8 * i)))

/-- Increment the counter that a node's parent holds for it (R330); answers the new counter. LEAF_COUNT is the upper 24
bits of its entry. -/
def State.bumpParent (s : State) (k : SliceId) (level idx : Nat) : BitVec 64 × State :=
  let c := s.parentCount k level idx
  let c' := if level = 0 then c + BitVec.ofNat 64 (2 ^ 40) else c + 1
  if level = 8 then
    (c', s.updSlice k (fun x => { x with tree := { x.tree with root := x.tree.root.set (idx % 8) c' (Nat.mod_lt _ (by decide)) } }))
  else
    match s.nodeNow k (level + 1) (idx / 8) with
    | some n => (c', s.putNode k (level + 1) (idx / 8) (setEntry n (idx % 8) c'))
    | none => (c', s)

/-! ## The journal head (R226, R230, R241) -/

/-- Blocks of the ring in a bank, written or ahead. -/
def Journal.inBank (j : Journal) (bank : Nat) : Nat := ((j.ring ++ j.ahead).filter (fun b => b % 16 = bank)).length

/-- Let ready 1-bit blocks of a bank join the ring up to 20 of them, each recorded (R226, R241); not on an Exhausted channel
(R251). -/
def Media.refillRing (m : Media) (now c d bank : Nat) (fuel : Nat) : Media :=
  match fuel with
  | 0 => m
  | fuel + 1 =>
    let j := m.journal (c * 8 + d)
    if 20 ≤ j.inBank bank || SMap.getD m.health c 0 = 4 then m
    else
      let free := { m with blocks := m.blocks.filter (fun e => !(e.1 / 16384 = c * 8 + d && j.ahead.contains (e.1 % 16384))) }
      match free.allocate c d bank 2 false with
      | none => m
      | some b =>
        let m := m.log now (.ring (c * 8 + d) b true)
        Media.refillRing { m with journals := SMap.put m.journals (c * 8 + d) { j with ahead := j.ahead ++ [b] } } now c d bank fuel

/-- Take the next page at a die's journal head: the rest of the head block, or the next ring block, rotating across banks. A block's PROGRAM_BEAT
waits for its first write (R220). -/
def Media.takeHead (m : Media) (now c d : Nat) : Option (Nat × Nat × Media) :=
  let cd := c * 8 + d
  let j := m.journal cd
  match j.ring.getLast? with
  | some b =>
    if j.headPage < 512 then some (b, j.headPage, { m with journals := SMap.put m.journals cd { j with headPage := j.headPage + 1 } })
    else next m cd j (b % 16)
  | none => next m cd j 15
where
  /-- The next block of the ring: from the bank after the head's onward. -/
  next (m : Media) (cd : Nat) (j : Journal) (bank : Nat) : Option (Nat × Nat × Media) :=
    match (List.range 16).findSome? (fun i => j.ahead.find? (fun b => b % 16 = (bank + 1 + i) % 16)) with
    | none => none
    | some b =>
      let m := m.setBlock now c d b { m.block c d b with use := .journal }
      let j' := { j with ring := j.ring ++ [b], ahead := j.ahead.filter (· != b), fresh := j.fresh ++ [b], headPage := 1 }
      some (b, 0, { m with journals := SMap.put m.journals cd j' })

/-- A die's journal has an unwritten page ahead of its head. -/
def Media.hasHead (m : Media) (cd : Nat) : Bool :=
  let j := m.journal cd
  !j.ahead.isEmpty || (!j.ring.isEmpty && decide (j.headPage < 512))

/-- Some block of a die may still be allocated to its journal (R252): the channel is not Exhausted and a block is released
or ready. -/
def Media.canAllocate (m : Media) (c d : Nat) : Bool :=
  SMap.getD m.health c 0 != 4 &&
    decide ((m.blocks.filter (fun e => decide (e.1 / 16384 = c * 8 + d) && e.2.use != .released && e.2.use != .ready)).length < 16384)

/-! ## Header copies at a drain (R148, R149) -/

/-- Lines grouped by the page they are homed on: page key and mask. -/
def State.pageMasks (s : State) (ls : List Nat) : List (Nat × BitVec 64) :=
  let homes : List (Nat × Nat) := ls.filterMap (fun l => match s.lineHome l with | some (.at p, i) => some (p.pageKey, i) | _ => none)
  ((homes.map (·.1)).eraseDups).map (fun pk => (pk, (homes.filter (fun h => h.1 = pk)).foldl (fun m h => setBit m h.2 true) 0))

/-- A frame whose header copies are both unusable (R149): the segment of the shadow entry is marked poisoned line by line, with a General Media record
for each, and the frame freed. A shadow entry whose PRESENT is 0 names no segment: the frame is freed and no line is marked (DESIGN CHOICE: R149 does
not say; log entry 69). -/
def State.frameLost (s : State) (k : SliceId) (n : Nat) : State :=
  let fr := (s.slice k).front.frame n
  let s := s.updSlice k (fun x => { x with front := x.front.release n s.beat.now, reads := x.reads.map (fun r => if r.fill = some n then { r with fill := none } else r) })
  if !fr.tagPresent then s
  else
    let ls := (List.range 32).map (fun i => fr.tagSeg * 32 + i)
    let s := (s.pageMasks ls).foldl (fun s p => s.updMedia k (·.markPoison s.beat.events p.1 p.2)) s
    ls.foldl (fun s l => s.mediaRecord none (l * 64) k.val 0xFF 0xFF n 0) (s.updFront k (·.addPoison ls))

/-- The words of header copies and spill records as read, from a word address each: errors are corrected, counted and logged, and one with an uncorrectable
word reads as nothing (R144, R148, R151). -/
def State.readWords (s : State) (k : SliceId) (found : List (Nat × List Byte × List Nat)) : List (List Byte) × State :=
  found.foldl (fun (acc : List (List Byte) × State) x =>
    let (errs, s) := acc.2.decodeWords k none 0 x.2.2
    (acc.1 ++ [if (errSummary errs).2.2 then [] else x.2.1], s.noteErrs k x.1 errs)) ([], s)

/-- The headers of some frames are read, for a rebuild or a drain (R148–R150): a usable copy is chosen and both written from it, and a frame with none is lost.
False where such a frame's tag shadow entry cannot be read either, which loses the slice with cause front store unidentifiable. -/
def State.readHeaders (s : State) (k : SliceId) (ns : List Nat) (found : List HdrRead) (shadows : List Nat) : Bool × State :=
  let found := found.filter (fun x => ns.contains x.frame)
  let (bytes, s) := s.readWords k (found.map (fun x => ((SramArea.frames.base + x.frame * 2048 + (if x.isA then 0 else 64)) / 8, x.bytes, x.errs)))
  let (f, lost) := (s.slice k).front.settleAll ns (List.zipWith (fun x b => { x with bytes := b }) found bytes)
  match lost.find? (fun n => shadows.contains n) with
  | some n => (false, s.vendorAll .fatal 0x0201 k.val 0xFF 0xFF 0 n 0)
  | none => (true, lost.foldl (fun s n => s.frameLost k n) (s.updFront k (fun _ => f)))

/-- Spill records are read, for a rebuild or a drain (R148, R156). One that is damaged leaves a line that cannot be told: the slice is lost with cause front
store unidentifiable, as under R149 (DESIGN CHOICE; log entry 69). -/
def State.readSpill (s : State) (k : SliceId) (found : List SpillRead) : Bool × State :=
  let (bytes, s) := s.readWords k (found.map (fun x => (spillWord x.entry + 8, x.bytes, x.errs)))
  match (s.slice k).front.rereadSpill (List.zipWith (fun x b => { x with bytes := b }) found bytes) with
  | (f, []) => (true, s.updFront k (fun _ => f))
  | (_, e :: _) => (false, s.vendorAll .fatal 0x0201 k.val 0xFF 0xFF 0 e 0)

/-- Frames that hold lines of a page. -/
def State.framesOfPage (s : State) (k : SliceId) (pk : Nat) : List Nat :=
  ((List.range 64).filterMap (fun i => (s.lineOfPage k pk i).bind (fun l => ((s.slice k).front.find (l / 32)).map (·.1)))).eraseDups

/-! ## Which pages drain (R227, R229) -/

/-- Page key of any line at its home, on its own slice. -/
def State.pageOf (s : State) (line : Nat) : Option Nat :=
  match s.lineHome line with
  | some (.at p, _) => some p.pageKey
  | some (.dead p, _) => some p.pageKey
  | _ => none

/-- A Critical channel forces the governor of its slice on (R254, Table 07-11). -/
def State.critical (s : State) (k : SliceId) : Bool := (s.slice k).media.health.any (fun e => decide (3 ≤ e.2))

/-- The share of a line's region in the governor's tokens (R254): its WEAR_SHARE, and for a Patient region at least 1 while Critical forces the governor;
0 where the line is not governed. -/
def State.wearShare (s : State) (k : SliceId) (line : Nat) : Nat × Nat :=
  match s.regionAt (line * 64) with
  | some (r, d, _) => (r, if s.critical k && d.patient then max 1 d.wear.toNat else if s.critical k || s.governorOn then d.wear.toNat else 0)
  | none => (0, 0)

/-- The governor covers a line. -/
def State.governed (s : State) (k : SliceId) (line : Nat) : Bool := (s.wearShare k line).2 != 0

/-- The mask of lines named. -/
def lineMask (is : List Nat) : BitVec 64 := BitVec.ofNat 64 (is.foldl (fun n i => n ||| 2 ^ i) 0)

/-- A rekey has this page's group left in its chunk (R345). -/
def State.rekeyPage (s : State) (k : SliceId) (pk : Nat) : Option (Nat × Nat) :=
  match s.groupDpa (placeOf k.val pk) with
  | none => none
  | some dpa =>
    (s.chunks.find? (fun c => c.2.contains (dpa / 4096))).map (fun c => (c.1, dpa / 4096))

/-- Lines of slice k held Dirty or Partial in frames that no drain has taken, with their frames' first dirty beats. -/
def Front.frameLines (f : Front) : List (Nat × Nat) :=
  f.dir.flatMap (fun e =>
    ((List.range 32).filter (fun i => e.2.dirty.getLsbD i && !(e.2.draining && e.2.drained.getLsbD i))).map
      (fun i => (e.2.seg * 32 + i, ((f.frame e.1).hdrB.firstDirty).toNat)))

/-- A line's region can be written: its key is Loaded, or it has none. -/
def State.lineKeyed (s : State) (l : Nat) : Bool :=
  match s.regionAt (l * 64) with
  | some (_, d, _) => (s.writeKey d).isSome
  | none => true

/-- Lines of a slice's poison list that can be drained: a line whose region's key is not Loaded waits for it (R340, R341). -/
def State.poisonDue (s : State) (k : SliceId) : Bool := (s.slice k).front.poison.any s.lineKeyed

/-- A page has nowhere to go: its die's journal has no unwritten page, and no block can be allocated to it (R252). -/
def State.noPlace (s : State) (k : SliceId) (pk : Nat) : Bool :=
  let m := (s.slice k).media
  !m.hasHead (pk / 2 ^ 24) && !m.canAllocate (pk / 2 ^ 27 % 16) (pk / 2 ^ 24 % 8)

/-- A page's die has no drain in flight, its overlay set has room or R252 marks it, and no re-encryption and no rekey that waits for a key holds it back (R227, R229,
R334, R335). -/
def State.placeable (s : State) (k : SliceId) (pk : Nat) : Bool :=
  let m := (s.slice k).media
  let lines := (s.pageNeeds k pk).map (·.2)
  let dead := (m.entry (pk / 1024)).st == .dead
  !(m.drains.any (fun d => d.key / 2 ^ 24 = pk / 2 ^ 24)) &&
    (dead || ((m.ovRoom pk || s.noPlace k pk) && lines.all s.lineKeyed && !(lines.any (fun l => m.reencs.contains (l / 64)))))

/-- Governed regions with lines that wait and could be placed, each with its share. -/
def State.wearWaiting (s : State) (k : SliceId) : List (Nat × Nat) :=
  let f := (s.slice k).front
  let ls := f.frameLines.map (·.1) ++ (f.spill.filter (fun e => !e.2.drained)).map (·.2.line)
  ((ls.filter (fun l => s.governed k l && (s.pageOf l).any (fun p => s.placeable k p))).map (s.wearShare k)).eraseDups

/-- The governor lets a page drain (R254): none of its lines is governed, or there are tokens for those that are and no other region that waits has had fewer
for its share; in the flush it holds nothing back. -/
def State.wearTurn (s : State) (k : SliceId) (pk : Nat) : Bool :=
  match ((s.pageNeeds k pk).map (·.2)).filter (s.governed k) with
  | [] => true
  | l :: ls =>
    let m := (s.slice k).media
    let (r, w) := s.wearShare k l
    let given := fun (r : Nat) => SMap.getD m.wearGiven r 0
    s.power.flush != .idle || (decide (256 * (ls.length + 1) ≤ m.tokens) && (s.wearWaiting k).all (fun o => decide (given r * o.2 ≤ given o.1 * w)))

/-- What the tokens of some lines of a region add to what it was given; the counts start again when the regions that wait have changed (R254; the rule
fixes the proportion only: DESIGN CHOICE, log entry 88). -/
def State.wearGive (s : State) (k : SliceId) (r n : Nat) : SMap Nat :=
  let g := (s.slice k).media.wearGiven
  let now := (r :: (s.wearWaiting k).map (·.1)).eraseDups
  let g := if now.all (fun r => (SMap.get? g r).isSome) && g.all (fun e => now.contains e.1) then g else now.foldl (fun g r => SMap.put g r 0) []
  SMap.put g r (SMap.getD g r 0 + n)

/-- A page can be drained now: it can be placed, and the governor does not hold it back. -/
def State.canDrain (s : State) (k : SliceId) (pk : Nat) : Bool :=
  s.placeable k pk && ((((s.slice k).media).entry (pk / 1024)).st == .dead || s.wearTurn k pk)

/-- Order of a page in the flush (R330): data, leaves, leaf-parents, pinned nodes. -/
def flushClass (line : Nat) : Nat := match treeOf line with | none => 0 | some (_, level, _) => level + 1

/-- Frames below the watermark that may drain all the same: aged, retired, of a key being retired, or the slice flushing. -/
def State.frameDue (s : State) (k : SliceId) (line : Nat) : Bool :=
  let f := (s.slice k).front
  let here := match f.find (line / 32) with | some (n, e) => f.aged.contains n || e.retired | none => false
  let keyed := match s.regionAt (line * 64) with
    | some (_, d, _) => s.ops.retires.any (fun r => r.slot = d.keyId)
    | none => true
  here || keyed || s.aboveIdle k || s.power.flush != .idle

/-- Lines that drain before any frame: those of the poison list, and when none of them can drain now, those of the spill store (R127, R229, R231). -/
def State.firstLines (s : State) (k : SliceId) : List Nat :=
  let f := (s.slice k).front
  let open' := fun (ls : List Nat) => ls.filter (fun l => match s.pageOf l with | some p => s.canDrain k p | none => false)
  let psn := open' f.poisonList
  if !psn.isEmpty then psn else open' ((f.spill.filter (fun e => !e.2.drained)).map (·.2.line))

/-- A page does not pass lines that drain before frames: none waits, or one of them is the page's (R127). -/
def State.notAhead (s : State) (k : SliceId) (pk : Nat) : Bool :=
  let first := s.firstLines k
  first.isEmpty || (s.pageNeeds k pk).any (fun n => first.contains n.2)

/-- The journal writer may drain this page now: the poison list first, then spill entries, then frames, oldest first dirty
beat first (R127, R229, R231, R310; in the flush by class, R330). -/
def State.drainTurn (s : State) (k : SliceId) (pk : Nat) : Bool :=
  let f := (s.slice k).front
  let mine := (s.pageNeeds k pk).map (·.2)
  let first := s.firstLines k
  if !first.isEmpty then mine.any (fun l => first.contains l)
  else
    let fl := f.frameLines.filter (fun l => s.frameDue k l.1 && (match s.pageOf l.1 with | some p => s.canDrain k p | none => false))
    let key := fun (l : Nat × Nat) => (if s.power.flush != .idle then flushClass l.1 else 0) * 2 ^ 48 + l.2
    match (fl.filter (fun l => mine.contains l.1)).map key with
    | [] => false
    | x :: xs => let best := xs.foldl min x; fl.all (fun l => decide (best ≤ key l))

/-! ## Reading what the medium holds (R227, R228, R334, R345) -/

/-- What the reads of line i brought, in the order of the ladder. -/
def sensesOf (olds : List (Nat × List Sense)) (i : Nat) : List Sense := ((olds.find? (fun o => o.1 = i)).map (·.2)).getD []

/-- First step of an engine's read of a page's source (R288). -/
def State.sourceStep (s : State) (k : SliceId) (pk : Nat) (src : Source) : Nat :=
  match src with
  | .media _ block _ => s.firstStep ((s.slice k).media.block (pk / 2 ^ 27 % 16) (pk / 2 ^ 24 % 8) block)
  | _ => 0

/-- The first decode of a ladder that succeeds. An erased codeword counts as uncorrectable: the map marks the page written (R228). -/
def goodTry (ts : List CwRead) : Option (BitVec 580) := ts.findSome? (fun t => match t with | .good i _ => some i | _ => none)

/-- The first decode of a ladder whose check does not call for another step (R324), with the tag failures before it that did: its verdict and what was decoded;
none when every step has failed. -/
def State.checkTries (s : State) (d : Desc) (line : Nat) (ver : Option (Nat × Nat)) (fails : Nat) : List CwRead → Nat × Option (BitVec 580 × Verdict)
  | [] => (fails, none)
  | .good i c :: ts => match s.checkLine d line i c ver with
    | .ladder => s.checkTries d line ver (fails + 1) ts
    | v => (fails, some (i, v))
  | _ :: ts => s.checkTries d line ver fails ts

/-- A line as its source gives it to a background reader that checks and decrypts it. -/
inductive OldLine where
  | held (data : Line) (poison : Bool) (minor : Nat)
  /-- it failed its check: its codeword as corrected, which stays as it is (R351) -/
  | tampered (cw : BitVec 640)
deriving DecidableEq, Repr

/-- A line as its source gives it, checked and decrypted. An unreadable one is poisoned with its record and SUSPECT (R228); a failed check raises its alarm
(R350). -/
def State.oldLine (s : State) (k : SliceId) (pk l : Nat) (src : Source) (d : Desc) (senses : List Sense) : OldLine × State :=
  match src with
  | .zero => (.held zeroLine false 0, s)
  | .poison => (.held zeroLine true 0, s)
  | .media _ block _ =>
    let (fails, got) := s.checkTries d l (s.sealedVersion k l) 0 (ladderTries (s.sourceStep k pk src) senses)
    let s := s.count k 0x501 fails
    match got with
    | some (i, .ok y p nk) => (.held (if p then zeroLine else y) p (infoMinor i).toNat, if nk then s.count k 0x507 else s)
    | some (i, .alarm c) => (.tampered (cwEncode i), (s.count k (if c = 1 then 0x500 else 0x502)).alarm c k.val (l * 64) 0)
    | _ => (.held zeroLine true 0, s.unreadable k (pk / 2 ^ 27 % 16) (pk / 2 ^ 24 % 8) block l)

/-- Bytes written over a line as its source gives it. Over a line that failed its check the merged line is poisoned: the write changes it, and what lies under the
bytes is not known (DESIGN CHOICE; log entry 95). -/
def OldLine.under (o : OldLine) (x : Line) (mask : BitVec 64) (poison : Bool) : Line × Bool :=
  match o with
  | .held base p _ => (mergeBytes base x mask, p || poison)
  | .tampered _ => (mergeBytes zeroLine x mask, true)

/-- The ladder of a line that a background reader needs has not ended and none of its steps has given the line yet, by its code or, with `check`, by its tag as
well: the reader climbs on (R228, R324). -/
def State.lineOpen (s : State) (k : SliceId) (pk i : Nat) (src : Source) (olds : List (Nat × List Sense)) (check : Bool) : Bool :=
  match src with
  | .media _ _ _ =>
    let first := s.sourceStep k pk src
    let senses := sensesOf olds i
    let tries := ladderTries first senses
    decide (senses.length < ladderReads first) &&
      (match (if check then (s.lineOfPage k pk i).bind (fun l => (s.regionAt (l * 64)).map (fun r => (l, r.2.1))) else none) with
      | some (l, d) => (s.checkTries d l (s.sealedVersion k l) 0 tries).2.isNone
      | none => (goodTry tries).isNone)
  | _ => false

/-- Raise one read of a ladder, number n, of a line of a page for an engine: numbers 0 and 1 are its own READs, the others MX's, with their scratch
sets loaded first (Table 08-7, Table 06-1). -/
def State.raiseAttempt (s : State) (k : SliceId) (rd : MediaRead) (rq : Rq) (w : Work) (mand : Bool) (n : Nat) : State :=
  let rd := { rd with step := min 3 (if n < 2 then n else if n < 5 then 2 else 3), tries := if n < 2 then 0 else if n < 5 then n - 2 else n - 5 }
  let send := fun (s : State) (rq : Rq) (ts : Nat) => s.pushReq k rd.chan { rd.req ts with rq := rq, work := w, mandatory := mand || rq == .mx }
  if n = 0 then send s rq (s.effBand ((s.slice k).media.block rd.chan.val rd.die.val rd.block) + (if rd.oneBit then 16 else 0))
  else if n = 1 then send (s.measured k rd) rq 31
  else send (s.loadScratch k rd) .mx rd.scratch

/-- Raise the reads of a sector that an engine gathers: its first READ, and the further reads of the ladders that its lines climbed. The offsets measured are
those that the step-1 read of a line left. -/
def State.raiseOlds (s : State) (k : SliceId) (rq : Rq) (w : Work) (mand : Bool) (pk sec : Nat) (src : Source) (olds : List (Nat × List Sense)) : State :=
  match src with
  | .media oneBit block page =>
    let rd := s.newRead k .repair (4 * sec) 0 Desc.forTree (placeOf k.val pk) oneBit block page
    let first := rd.step
    let offOf := fun (l : List Sense) => ((l[1 - first]?).map (·.off)).getD rd.off
    let lines := (List.range 4).map (fun i => (4 * sec + i, sensesOf olds (4 * sec + i)))
    let lead := ((lines.find? (fun l => !l.2.isEmpty)).map (·.2)).getD []
    let s := s.raiseAttempt k { rd with off := offOf lead } rq w mand first
    lines.foldl (fun s l => (List.range (l.2.length - 1)).foldl (fun s n => s.raiseAttempt k { rd with line := l.1, off := offOf l.2 } rq w mand (first + n + 1)) s) s
  | _ => s

/-! ## Starting a drain (R227, R331) -/

/-- The 28 bytes of a journal page's tag but for its BEAT, which the channel controller sets when the tag is sent (R223). -/
def Drain.tag (d : Drain) : List Byte := tagContents 0x1A d.kind.num d.key d.gen.toNat d.seq.toNat 0 d.sectors.toNat 0

/-- Raise the FW requests of a journal page: its sectors by WRITE1, then its tag (R227 step 4). -/
def State.raiseDrain (s : State) (k : SliceId) (d : Drain) : State :=
  let j := ch16 (d.key / 2 ^ 27)
  let cw := fun (i : Nat) => match d.parts.find? (fun p => p.1 = i) with
    | some (_, p) => s.encodePart d.seq p
    | none => cwEncode 0
  let s := (List.range 16).foldl (fun s sec =>
    if d.sectors.getLsbD sec && d.parts.any (fun p => p.1 / 4 = sec) then
      s.pushReq k j ⟨.fw, .write1, d.die, d.jblock, d.jpage, sec, 0, 0, sectorBytes ((List.range 4).map (fun c => cw (4 * sec + c))), .drain d.key, 0, d.mandatory⟩
    else s) s
  s.pushReq k j ⟨.fw, .writeTag, d.die, d.jblock, d.jpage, 0, 0, 0, d.tag, .drain d.key, 0, d.mandatory⟩

/-- A line in the form a fresh encoding takes: its versions from the tree when Sealed (R331: the leaf already counts it). -/
def State.freshPart (s : State) (k : SliceId) (line : Nat) (data : Line) (poison : Bool) : DrainPart :=
  let v := (s.sealedVersion k line).getD (0, 0)
  .fresh line (if poison then 0 else data) poison v.1 v.2

/-- A line whose node is unverifiable moves poisoned (R352). -/
def State.movesPoisoned (s : State) (k : SliceId) (pk i : Nat) : Bool :=
  match s.lineOfPage k pk i with | some l => (s.unverNode k l).isSome | none => false

/-- A line that is copied from its source for a written page: as stored, an encrypted zero line, or poisoned (R227, R237, R352). During a rekey it is checked
and encrypted again under the new key with its version unchanged (R345); one that fails its check stays as stored (R351; DEDUCED, log entry 104). A tree node that cannot be read, or
whose place is lost, is unverifiable (Table 10-8). -/
def State.copyPart (s : State) (k : SliceId) (pk i : Nat) (src : Source) (olds : List (Nat × List Sense)) (rekey : Bool) : DrainPart × State :=
  let line := s.lineOfPage k pk i
  let fresh := fun (s : State) (poison : Bool) => match line with
    | some l => (match treeOf l with
      | some (_, level, idx) => DrainPart.stored (s.nodeCodeword k level idx (if poison then none else some 0) (s.parentCount k level idx))
      | none => s.freshPart k l 0 poison)
    | none => .stored (cwEncode 0)
  let lost := fun (s : State) => match line.bind treeOf with
    | some (_, level, idx) => s.addUnver k level idx
    | none => s
  match src with
  | .zero => (fresh s (s.movesPoisoned k pk i), s)
  | .poison => (fresh s true, lost s)
  | .media _ block _ =>
    if s.movesPoisoned k pk i then (fresh s true, s)
    else match rekey, line.bind (fun l => (s.regionAt (l * 64)).map (fun r => (l, r.2.1))) with
      | true, some (l, d) =>
        let ver := s.sealedVersion k l
        match s.oldLine k pk l src d (sensesOf olds i) with
        | (.held data poison minor, s) => (.stored (s.sealLine l data poison (ver.getD (0, minor)).1 (ver.getD (0, minor)).2), s)
        | (.tampered cw, s) => (.stored cw, s)
      | _, _ =>
        match goodTry (ladderTries (s.sourceStep k pk src) (sensesOf olds i)) with
        | some info => (.stored (cwEncode info), s)
        | none => (fresh s true, lost (s.unreadable k (pk / 2 ^ 27 % 16) (pk / 2 ^ 24 % 8) block (line.getD 0)))

/-- Mark a line's place as taken by a drain (R136). -/
def Front.takeLine (f : Front) (line : Nat) : Front :=
  match f.findSpill line with
  | some (e, sp) => { f with spill := SMap.put f.spill e { sp with drained := true, rewritten := false } }
  | none =>
    match f.find (line / 32) with
    | none => f
    | some (n, e) => f.putEntry n { e with draining := true, drained := setBit e.drained (line % 32) true, rewritten := setBit e.rewritten (line % 32) false }

/-- Seal index of a page's group, unless its lines move poisoned whatever the nodes say (R352); none for a page that is not Sealed. -/
def State.pageSeal (s : State) (k : SliceId) (pk : Nat) : Option Nat :=
  match s.lineOfPage k pk 0 with
  | none => none
  | some l => if (s.unverNode k l).isSome then none else s.lineSeal l

/-- The group's leaf and leaf-parent are in the front store, or are on their way (R331). -/
def State.nodesHeld (s : State) (k : SliceId) (i : Nat) : Bool := (s.nodeLine k 0 i).isSome && (s.nodeLine k 1 (i / 8)).isSome

/-- Fetch the leaf and leaf-parent of a group (R331). -/
def State.fetchNodes (s : State) (k : SliceId) (i : Nat) : State := (s.fetchNode k 1 (i / 8)).fetchNode k 0 i

/-- A group waits for re-encryption (R331, R334). -/
def State.wantReenc (s : State) (k : SliceId) (g : Nat) : State :=
  s.updMedia k (fun m => { m with reencs := if m.reencs.contains g then m.reencs else m.reencs ++ [g] })

/-- Before a Sealed page is encrypted (R331): its nodes are in the front store, no minor of a line that drains is 255 and LEAF_COUNT is not at its
limit. Answers whether the drain goes on. -/
def State.sealReady (s : State) (k : SliceId) (pk : Nat) (lines : List Nat) : Bool × State :=
  match s.pageSeal k pk with
  | none => (true, s)
  | some i =>
    match s.nodeLine k 0 i, s.nodeLine k 1 (i / 8) with
    | some leaf, some par =>
      if lines.any (fun l => leafMinor leaf (l % 64) = 255) || decide ((nodeEntry par (i % 8)).toNat / 2 ^ 40 = 2 ^ 24 - 1) then
        (false, s.wantReenc k ((lines.headD 0) / 64))
      else (true, s)
    | _, _ => (false, s.fetchNodes k i)

/-- The leaf is committed with minor + 1 for each line drained (R331); reads of the group under way keep the versions that they were issued under. -/
def State.sealRaise (s : State) (k : SliceId) (pk : Nat) (lines : List Nat) : State :=
  match s.pageSeal k pk with
  | none => s
  | some i =>
    match s.nodeLine k 0 i, s.nodeLine k 1 (i / 8) with
    | some leaf, some par =>
      (s.pinVersions k i par leaf).putNode k 0 i (lines.foldl (fun n l => setMinor n (l % 64) (leafMinor n (l % 64) + 1)) leaf)
    | _, _ => s

/-- A Partial line of a drain whose source's ladder still climbs. -/
def State.mergeOpen (s : State) (k : SliceId) (pk : Nat) (n : Nat × Nat) (olds : List (Nat × List Sense)) : Bool :=
  match (s.slice k).front.need n.2 with
  | .merge _ _ _ => s.lineOpen k pk n.1 ((s.slice k).media.resolve pk (n.1 / 4) false) olds true
  | _ => false

/-- Partial lines of a Sealed page are merged over their source and committed as Dirty before anything else of its drain (R331). -/
def State.mergeSealed (s : State) (k : SliceId) (pk : Nat) (needs : List (Nat × Nat)) (olds : List (Nat × List Sense)) : State :=
  needs.foldl (fun s n =>
    match (s.slice k).front.need n.2, s.regionAt (n.2 * 64) with
    | .merge x mask p, some (_, d, _) =>
      if d.mode == .sealed then
        let (old, s) := s.oldLine k pk n.2 ((s.slice k).media.resolve pk (n.1 / 4) false) d (sensesOf olds n.1)
        let (y, pz) := old.under x mask p
        s.updFront k (·.mergeBack s.beat.now n.2 y pz)
      else s
    | _, _ => s) s

/-- The tree nodes a page would write, each with its parent held and its counter below the limit (R330): whether the drain goes
on, or what it must fetch or re-encrypt first. -/
def State.nodeStep (s : State) (k : SliceId) (nodes : List (Nat × Nat)) : Bool × State :=
  nodes.foldl (fun (acc : Bool × State) n =>
    let (ok, s) := acc
    if n.1 = 0 then
      match s.nodeLine k 1 (n.2 / 8) with
      | none => (false, s.fetchNode k 1 (n.2 / 8))
      | some par =>
        if (nodeEntry par (n.2 % 8)).toNat / 2 ^ 40 = 2 ^ 24 - 1 then
          let g := match s.sealRegion k.val n.2 with
            | some (_, d, base, _, _) =>
              -- group of seal index n.2: its own DPA by R325
              let sr := n.2 - base
              let dd := max 1 s.dies
              let pl : Place := ⟨k.val, sr / (16 * dd) % 16, sr % (16 * dd) / 16, sr % 16, 0, 0⟩
              let u := (SMap.get? s.index d.base).map (fun e => e.unitBase + sr / (256 * dd)) |>.getD 0
              (s.groupDpa { pl with blk := u / 1024, page := u % 1024 }).map (· / 4096)
            | none => none
          (false, match g with
            | some g => s.wantReenc k g
            | none => s)
        else (ok, s)
    else (ok, s)) (true, s)

/-- What a drain makes of line i of its page: fresh contents where the front store or the poison list holds the line, a tree node under its parent's
raised counter (R330), or a copy of its source. -/
def State.drainPart (s : State) (k : SliceId) (pk i : Nat) (needs : List (Nat × Nat)) (nodes : List (Nat × Nat × Nat)) (olds : List (Nat × List Sense))
    (rekey exhausted : Bool) (jb : Nat) : Option DrainPart × State :=
  let src := (s.slice k).media.resolve pk (i / 4) false
  match nodes.find? (fun n => n.1 = i) with
  | some (_, level, idx) =>
    let node := s.nodeNow k level idx
    let (cnt, s) := s.bumpParent k level idx
    (some (.stored (s.nodeCodeword k level idx node cnt)), s.count k 0x40A)
  | none =>
    match needs.find? (fun n => n.1 = i) with
    | some (_, l) =>
      -- a line committed after the channel became Exhausted is drained poisoned (R251)
      let late := exhausted && (s.slice k).media.lateLines.contains l
      let s := if late then s.lineRecord k none l (pk / 2 ^ 27 % 16) (pk / 2 ^ 24 % 8) jb 1 else s
      let bad := late || (s.unverNode k l).isSome
      match (s.slice k).front.need l, s.regionAt (l * 64) with
      | .fresh x p, _ => (some (s.freshPart k l x (p || bad)), s)
      | .merge x mask p, some (_, d, _) =>
        let (old, s) := s.oldLine k pk l src d (sensesOf olds i)
        let (y, pz) := old.under x mask p
        (some (s.freshPart k l y (pz || bad)), s)
      | .merge x mask _, none => (some (s.freshPart k l (mergeBytes zeroLine x mask) true), s)
      | .none, _ => (none, s)
    | none =>
      let (p, s) := s.copyPart k pk i src olds rekey
      (some p, s)

/-- Place a journal page for a page key and raise its reads and writes (R227, R331); `nodes` are pinned or dirty tree nodes of the page
whose parents' counters are incremented first (R330). -/
def State.beginDrain (s : State) (k : SliceId) (pk : Nat) (olds : List (Nat × List Sense)) (nodes : List (Nat × Nat × Nat)) (rekey : Bool) : State :=
  let c := pk / 2 ^ 27 % 16
  let dd := pk / 2 ^ 24 % 8
  let needs := s.pageNeeds k pk
  let lines := needs.map (·.2)
  let data := lines.filter (fun l => (treeOf l).isNone)
  let (go, s) := s.nodeStep k (nodes.map (·.2))
  if !go then s
  else
    -- sectors that step 2 reads: those with a Partial line, or with a line that nothing newer replaces
    let fresh := fun (sec : Nat) => (needs.filter (fun n => n.1 / 4 = sec && (match (s.slice k).front.need n.2 with | .merge _ _ _ => false | _ => true))).length +
      (nodes.filter (fun n => n.1 / 4 = sec)).length
    let toRead := (List.range 16).filter (fun sec => decide (fresh sec < 4))
    -- the versions that a Partial line's base is checked under come from the nodes, so these are brought in first
    let (go, s) := match s.pageSeal k pk with
      | some i => if !s.nodesHeld k i then (false, s.fetchNodes k i)
        else if needs.any (fun n => s.mergeOpen k pk n olds) then (false, s)
        else (s.mergeSealed k pk needs olds).sealReady k pk data
      | none => (true, s)
    let old := SMap.get? (s.slice k).media.overlay pk
    let prev : BitVec 16 := (old.map (·.sectors)).getD 0
    let want := (needs.map (·.1)) ++ nodes.map (·.1)
    let sectors : BitVec 16 := if rekey then BitVec.allOnes 16
      else BitVec.ofNat 16 ((List.range 16).foldl (fun n sec => if prev.getLsbD sec || want.any (fun i => i / 4 = sec) then n + 2 ^ sec else n) 0)
    -- a line that step 2 reads and whose ladder still climbs holds the drain back (R228)
    let merged := fun (i : Nat) => needs.any (fun n => n.1 = i && (match (s.slice k).front.need n.2 with | .merge _ _ _ => true | _ => false))
    let climbs := (List.range 64).any (fun i => sectors.getLsbD (i / 4) && (merged i || !want.contains i) &&
      s.lineOpen k pk i ((s.slice k).media.resolve pk (i / 4) false) olds (rekey || merged i))
    if !go || climbs then s
    else
      match (s.slice k).media.takeHead s.beat.events c dd with
      | none => s
      | some (jb, jp, m) =>
        let seq := m.seq + 1
        let s := s.updMedia k (fun _ => { m with seq := seq })
        let dirty := (s.slice k).tree.dirty.filter (fun x => nodes.any (fun n => x.level = n.2.1 && x.idx = n.2.2))
        let listed := lineMask ((needs.filter (fun n => (s.slice k).front.poison.contains n.2)).map (·.1))
        let mand := lines.any (fun l => ((s.slice k).front.poison.contains l) || ((s.slice k).front.findSpill l).isSome) ||
          dirty.any (·.due)
        let s := (toRead.filter (fun sec => sectors.getLsbD sec)).foldl (fun s sec => s.raiseOlds k .fw (.drain pk) mand pk sec (m.resolve pk sec false) olds) s
        let s := s.sealRaise k pk data
        let exhausted := SMap.getD m.health c 0 = 4
        let (parts, s) := (List.range 64).foldl (fun (acc : List (Nat × DrainPart) × State) i =>
          if !sectors.getLsbD (i / 4) then acc
          else
            let (p, s) := acc.2.drainPart k pk i needs nodes olds rekey exhausted jb
            (acc.1 ++ (p.map (fun x => (i, x))).toList, s)) ([], s)
        let gov := lines.filter (s.governed k)
        let given := match gov with
          | [] => m.wearGiven
          | l :: _ => s.wearGive k (s.wearShare k l).1 gov.length
        let d : Drain := ⟨pk, fin8 dd, jb, jp, sectors, (m.entry (pk / 1024)).drainGen, seq, (old.map (·.kind)).getD .block, lineMask (needs.map (·.1)), rekey, parts, mand, false, rekey,
          lineMask (needs.map (·.1)) &&& (listed ||| m.marks pk), dirty⟩
        let s := s.updMedia k (fun m => { m with drains := m.drains ++ [d], tokens := m.tokens - 256 * gov.length, wearGiven := given })
        let s := s.updFront k (fun f => lines.foldl (fun f l => f.takeLine l) f)
        let s := s.updSlice k (fun x => { x with tree := { x.tree with dirty := x.tree.dirty.filter (fun n => !dirty.any (fun y => y.level = n.level && y.idx = n.idx)) } })
        s.raiseDrain k d

/-- A rekey has nothing left to do on a page's group (R345). -/
def State.chunkDone (s : State) (k : SliceId) (pk : Nat) : State :=
  match s.groupDpa (placeOf k.val pk) with
  | some dpa => { s with chunks := s.chunks.map (fun (c : Nat × List Nat) => (c.1, c.2.filter (· != dpa / 4096))) }
  | none => s

/-- Lines that no block can take (R252), or that belong to a DEAD block (R247): they leave the front store, each with a General
Media record of a host write (R74), and the page takes no part in a rekey any more. -/
def State.dropLines (s : State) (k : SliceId) (pk : Nat) (lines : List Nat) : State :=
  lines.foldl (fun s l =>
    let s := s.updFront k (·.drop l s.beat.now)
    let s := s.updMedia k (fun m => { m with lateLines := m.lateLines.filter (· != l) })
    s.lineRecord k none l (pk / 2 ^ 27 % 16) (pk / 2 ^ 24 % 8) (pk / 2 ^ 20 % 16) 1) ((s.updMedia k (·.unmarkAll s.beat.events (· == pk))).chunkDone k pk)

/-- R252: no place for the page. Its page is marked POISON, or its block LOST. -/
def State.markUnplaced (s : State) (k : SliceId) (pk : Nat) (lines : List Nat) : State :=
  let m := (s.slice k).media
  let room := m.ovRoom pk
  let s := if room then s.updMedia k (fun m => m.setOverlay s.beat.events pk ⟨0, 0, 0, .poison, false, (m.entry (pk / 1024)).drainGen, m.seq⟩)
    else s.updMedia k (fun m => m.setMap s.beat.events (pk / 1024) { m.entry (pk / 1024) with st := .lost })
  let s := s.vendorAll .failure 0x0301 k.val (pk / 2 ^ 27 % 16) (pk / 2 ^ 24 % 8) (if room then pk else pk / 1024) (if room then 1 else 2) 0
  s.dropLines k pk lines

/-- A drain that waits for room in its overlay set; the set's blocks are folded first (R229, R235). -/
def Media.waitRoom (m : Media) (pk : Nat) : Media :=
  let others := (m.overlay.filter (fun e => ovSet e.1 == ovSet pk)).map (fun e => e.1 / 1024)
  { m with
    waiting := if m.waiting.contains pk then m.waiting else m.waiting ++ [pk]
    urgent := others.foldl (fun u key => if u.contains key then u else u ++ [key]) m.urgent }

/-- Work raised as budgeted has become mandatory (Table 09-1): garbage collection of a die with fewer than 256 unwritten pages, a fold that has come to
block a spill or poison-list drain, a node write-back past its deadline, and the copy of map journal records 48 beats old. -/
def State.mandate (s : State) (k : SliceId) : State :=
  let m := (s.slice k).media
  let due := fun (j : Nat) (r : ChReq) => match r.work with
    | .gc d => decide (m.pagesAhead (j * 8 + d) < 256)
    | .fold key => s.foldMandatory k key
    | .drain key => m.drains.any (fun d => d.key = key && d.mandatory)
    | .mapCopy => m.copyDue
    | _ => false
  (List.finRange 16).foldl (fun s j => s.updChan k j (fun c =>
    let up := fun (r : ChReq) => if due j.val r then { r with mandatory := true } else r
    { c with arb := { c.arb with queue := c.arb.queue.map up, chosen := c.arb.chosen.map up } })) s

/-- A slice's journal writer may take a page: the slice works, or it is starting and drains its poison list (R231). -/
def State.drains (s : State) (k : SliceId) (pk : Nat) : Bool :=
  (s.slice k).st == .working || ((s.slice k).st == .rebuilding && (s.pageNeeds k pk).any (fun n => (s.slice k).front.poisonList.contains n.2))

/-- A drain under way no longer holds what the line is now (R136). -/
def Front.rewritten (f : Front) (line : Nat) : Bool :=
  match f.findSpill line with
  | some (_, sp) => sp.rewritten
  | none => match f.find (line / 32) with
    | some (_, e) => e.rewritten.getLsbD (line % 32)
    | none => false

/-- End of a drained line (R136): Clean if it was Dirty, Invalid if Partial, with its mask cleared, a spill entry freed, and with `psn` the poison list cleared of
it (R231); a line rewritten since keeps its state. -/
def Front.landLine (f : Front) (line : Nat) (now : BitVec 64) (psn : Bool) : Front :=
  let f := if psn then { f with poison := f.poison.filter (· != line) } else f
  match f.findSpill line with
  | some (e, sp) => if !sp.drained then f
      else if sp.rewritten then { f with spill := SMap.put f.spill e { sp with drained := false, rewritten := false } }
      else f.freeSpill (fun n _ => n == e)
  | none =>
    match f.find (line / 32) with
    | none => f
    | some (n, e) =>
      let i := line % 32
      if !e.drained.getLsbD i then f
      else
        let e1 := if e.rewritten.getLsbD i then e else e.setLine i (if e.lineSt i = 2 then 1 else if e.lineSt i = 3 then 0 else e.lineSt i)
        let e2 := { e1 with drained := setBit e1.drained i false, rewritten := setBit e1.rewritten i false }
        let f := f.putEntry n { e2 with draining := e2.drained != 0 }
        let f := if e.rewritten.getLsbD i then f else { f with frames := SMap.put f.frames n { f.frame n with masks := SMap.put (f.frame n).masks i 0 } }
        let f := if e1.dirty = 0 then { f with aged := f.aged.filter (· != n) } else f
        f.writeHdr n now

/-- The drain in flight on a die. -/
def Media.drainOn (m : Media) (j d : Nat) : Option Drain := m.drains.find? (fun x => decide (x.key / 2 ^ 24 = j * 8 + d))

/-- DRAIN_COMMIT (R227 step 5, R136): the tag write ended without WFAIL. -/
def execDrainCommit (k : SliceId) (j : ChanId) (d : DieId) (s : State) : Host.Outcome State Fault Refusal :=
  .next (match (s.slice k).media.drainOn j.val d.val with
    | none => s
    | some dr =>
      let busy := (SMap.get? ((s.chan k j).dies[d]).banks (dr.jblock % 16)).isSome
      if dr.aborted || busy || !(s.chan k j).workDone (.drain dr.key) then s
      else
        let ls := ((List.range 64).filter (fun i => dr.lines.getLsbD i)).filterMap (fun i => (s.lineOfPage k dr.key i).map (fun l => (i, l)))
        let f := (s.slice k).front
        let s := s.updMedia k (fun m =>
          let m := (m.setOverlay s.beat.events dr.key ⟨dr.jblock, dr.jpage, dr.sectors, dr.kind, false, dr.gen, dr.seq⟩).unmark s.beat.events dr.key dr.psn
          { m with drains := m.drains.filter (fun x => x.key != dr.key), lateLines := m.lateLines.filter (fun l => !ls.any (fun x => x.2 = l) || f.rewritten l),
                   waiting := m.waiting.filter (· != dr.key) })
        let s := s.updFront k (fun f => ls.foldl (fun f l => f.landLine l.2 s.beat.now (dr.psn.getLsbD l.1)) f)
        let s := if dr.rekey then s.chunkDone k dr.key else s
        ((s.count k 0x20C ls.length).retryHeld k).grantCredits)

/-- The page of a drain is written again at the next head page with a new SEQ (R230); a block that reported WFAIL is
collected at once and takes no further page. With no page to take it waits, or R252 applies. -/
def State.redrain (s : State) (k : SliceId) (j : ChanId) (d : DieId) (wfail : Bool) : State :=
  match (s.slice k).media.drainOn j.val d.val with
  | none => s
  | some dr =>
    let cd := j.val * 8 + d.val
    let s := s.dropWork k j (.drain dr.key)
    let s := if wfail then s.updMedia k (fun m =>
        let jn := m.journal cd
        { m with journals := SMap.put m.journals cd { jn with
          headPage := if jn.ring.getLast? = some dr.jblock then 512 else jn.headPage
          failed := if jn.failed.contains dr.jblock then jn.failed else jn.failed ++ [dr.jblock] } })
      else s
    match (s.slice k).media.takeHead s.beat.events j.val d.val with
    | none =>
      if (s.slice k).media.canAllocate j.val d.val then
        s.updMedia k (fun m => { m with drains := m.drains.map (fun x => if x.key = dr.key then { x with aborted := true } else x) })
      else
        let lines := ((List.range 64).filter (fun i => dr.lines.getLsbD i)).filterMap (s.lineOfPage k dr.key)
        ((s.updMedia k (fun m => { m with drains := m.drains.filter (fun x => x.key != dr.key) })).markUnplaced k dr.key lines).grantCredits
    | some (jb, jp, m) =>
      let dr' := { dr with jblock := jb, jpage := jp, seq := m.seq + 1, rewrite := true, aborted := false }
      let s := s.updMedia k (fun _ => { m with seq := m.seq + 1, drains := m.drains.map (fun x => if x.key = dr.key then dr' else x) })
      s.raiseDrain k dr'

/-- JOURNAL_WRITE_FAIL (R206, R230): a sector or tag write of the die's drain reported WFAIL or was aborted. -/
def execJournalWriteFail (k : SliceId) (j : ChanId) (d : DieId) (s : State) : Host.Outcome State Fault Refusal :=
  .next (match (s.slice k).media.drainOn j.val d.val with
    | none => s
    | some dr => s.redrain k j d (!dr.aborted))

/-- TREE_WRITEBACK_DEADLINE (R309): the deadline since the node's first change has passed, so its write-back is mandatory, also one under way. -/
def execTreeWritebackDeadline (k : SliceId) (level idx : Nat) (s : State) : Host.Outcome State Fault Refusal :=
  .next (
    let late := fun (n : DirtyNode) => n.level = level && n.idx = idx && decide (n.since + (s.slice k).pacer.parm.tree ≤ s.beat.events)
    let mark := fun (n : DirtyNode) => if late n then { n with due := true } else n
    (s.updSlice k (fun x => { x with
      tree := { x.tree with dirty := x.tree.dirty.map mark }
      media := { x.media with drains := x.media.drains.map (fun d => { d with nodes := d.nodes.map mark, mandatory := d.mandatory || d.nodes.any late }) } })).mandate k)

/-- FRAME_DIRTY_AGE_EXPIRE (R310): a frame whose first dirty beat lies more than the maximum dirty age back is due. -/
def execFrameDirtyAgeExpire (k : SliceId) (f : Nat) (s : State) : Host.Outcome State Fault Refusal :=
  .next (s.updSlice k (fun x =>
    let e := x.front.entry f
    let first := (x.front.frame f).hdrB.firstDirty
    let old := decide (2 ^ x.pacer.parm.maxAge < (s.beat.now.setWidth 48 - first).toNat)
    if x.pacer.parm.maxAge ≠ 0 && e.present && e.dirty != 0 && old && !x.front.aged.contains f then
      { x with front := { x.front with aged := x.front.aged ++ [f] } } else x))

/-! ## Group re-encryption (R334, R335) -/

/-- A line of a group under re-encryption is made Dirty (R334 step 2): as the front store holds it whole, or read, checked and decrypted, with the bytes
of a Partial slot laid over it. One that fails its check stays on the medium as it is (R351). False where no frame takes the line now. -/
def State.makeDirty (s : State) (k : SliceId) (d : Desc) (l : Nat) (senses : List Sense) : Bool × State :=
  match (s.slice k).front.look l with
  | .full _ _ true => (true, s)
  | .full x _ false => let r := s.commitRepair k l x.read x.poisoned; (r.2, r.1)
  | look =>
    let pk := (s.pageOf l).getD 0
    let src := match s.lineSource k l with | some (_, x) => x | none => .poison
    let (old, s) := s.oldLine k pk l src d senses
    match look, old with
    | .partly x m _, _ => let (y, pz) := old.under x.data m x.poisoned; (true, s.updFront k (·.mergeBack s.beat.now l y pz))
    | _, .tampered _ => (true, s)
    | _, .held base pz _ => let r := s.commitRepair k l base pz; (r.2, r.1)

/-- Step 1 of a group's re-encryption: frames for its segments under steps 1 and 2 of R123, or none. -/
def Front.takeSegs (f : Front) (salt : BitVec 35) (now : BitVec 64) (segs : List Nat) : Option Front :=
  segs.foldl (fun f seg => f.bind (fun f => if (f.find seg).isSome then some f else (f.pick (setOf salt seg)).map (fun n => (f.assign n seg).writeHdr n now))) (some f)

/-- A region's warning about its majors has been written, on whichever slice (R335). -/
def State.warnedOf (s : State) (n : Nat) : Bool := s.sliceIds.any (fun k => (s.slice k).tree.warned.contains n)

/-- GROUP_REENCRYPTION (R334): every line of the group becomes Dirty in the front store, then the leaf-parent takes MAJOR + 1 and
LEAF_COUNT 0, then the leaf every minor 0. Operand `olds` is what the dies return, by line of the group. At the last major
a host-supplied key leaves the lines Dirty with a record; a device-held one starts a rekey; under the new key of a rekey the majors start again from 0
(R335, whose reference to the tree is stale: DEDUCED from R349, log entry 89). -/
def execGroupReencryption (k : SliceId) (group : Nat) (olds : List (Nat × List Sense)) (s : State) : Host.Outcome State Fault Refusal :=
  .next (
    if !(s.slice k).media.reencs.contains group then s
    else match s.regionAt (group * 4096), s.lineSeal (group * 64) with
      | some (r, d, _), some i =>
        match s.nodeLine k 0 i, s.nodeLine k 1 (i / 8) with
        | some _, some par =>
          let major := (nodeEntry par (i % 8)).toNat % 2 ^ 40
          if major = 2 ^ 40 - 1 && d.st != .rekeying then
            match SMap.get? s.keys d.keyId with
            | some key =>
              if !key.dev then
                if s.warnedOf (r + 65536) then s
                else
                  let s := s.updSlice k (fun x => { x with tree := { x.tree with warned := (r + 65536) :: x.tree.warned } })
                  (s.vendorAll .failure 0x0504 k.val 0xFF 0xFF 0 r d.keyId)
              else
                match (List.range 2047).find? (fun n => (SMap.get? s.keys (n + 1)).isNone) with
                | none => s
                | some n =>
                  let slot := n + 1
                  let kb : BitVec 512 := Config.random s.free 512
                  let s := { s with free := s.free + 1 }
                  let s := { s with keys := SMap.put s.keys slot ⟨1, true, kb, macKeyOf kb, kcvOf kb, 0⟩ }
                  let wrapped := (kwWrap (leNats 32 s.fused.rootKey.toNat) (leNats 64 kb.toNat)).map (BitVec.ofNat 8)
                  let s := { s with led := { s.led with keys := s.led.keys.put (SMap.put s.keyRecs slot ⟨1, true, kcvOf kb, wrapped⟩) } }
                  let s := (s.putOps (fun o => { o with rekeys := ⟨r, d.keyId, slot, 0⟩ :: o.rekeys })).store
                  (s.modDesc r (fun d => { d with st := .rekeying, newKey := slot, rekeyPtr := 0 })).mapSlices (fun x => { x with
                    tree := { x.tree with warned := x.tree.warned.filter (fun n => n % 65536 != r) } })
            | none => s
          else
            let open' := fun (l : Nat) => match (s.slice k).front.look l, s.pageOf l with
              | .full _ _ _, _ => false
              | _, some pk => s.lineOpen k pk (l % 64) ((s.slice k).media.resolve pk (l % 64 / 4) false) olds true
              | _, none => false
            -- step 1
            match (s.slice k).front.takeSegs s.beat.salt s.beat.now [group * 2, group * 2 + 1] with
            | none => s
            | some f =>
              let fresh := ([group * 2, group * 2 + 1].filter (fun g => ((s.slice k).front.find g).isNone)).length
              let s := (s.updFront k (fun _ => f)).count k 0x202 fresh
              if (List.range 64).any (fun n => open' (group * 64 + n)) then s
              else
              -- step 2
              let s := match s.pageOf (group * 64) with
                | some pk => (List.range 16).foldl (fun (s : State) sec =>
                    if (List.range 4).all (fun i => match (s.slice k).front.look (group * 64 + 4 * sec + i) with | Look.full _ _ _ => true | _ => false) then s
                    else s.raiseOlds k .fw (.drain pk) false pk sec ((s.slice k).media.resolve pk sec false) olds) s
                | none => s
              let (all', s) := (List.range 64).foldl (fun (acc : Bool × State) n =>
                let (ok, s) := acc.2.makeDirty k d (group * 64 + n) (sensesOf olds n)
                (acc.1 && ok, s)) (true, s)
              if !all' then s
              else
              -- step 3
              let leaf := (s.nodeLine k 0 i).getD 0
              let next := (major + 1) % 2 ^ 40
              let s := s.pinVersions k i par leaf
              let s := s.putNode k 1 (i / 8) (setEntry par (i % 8) (BitVec.ofNat 64 next))
              let s := s.putNode k 0 i 0
              let s := s.count k 0x505
              let s := s.updMedia k (fun m => { m with reencs := m.reencs.filter (· != group) })
              let s := if 2 ^ 40 - 2 ^ 32 < next && !s.warnedOf r then
                  let s := s.updSlice k (fun x => { x with tree := { x.tree with warned := r :: x.tree.warned } })
                  s.vendorAll .warning 0x0503 k.val 0xFF 0xFF 0 r 0
                else s
              s.grantCredits
        | _, _ => s.fetchNodes k i
      | _, _ => s.updMedia k (fun m => { m with reencs := m.reencs.filter (· != group) }))

/-! ## Garbage collection (R241) -/

/-- Live pages of a journal block: page keys whose overlay entry names it. -/
def Media.livePages (m : Media) (c d b : Nat) : List Nat :=
  (m.overlay.filter (fun e => decide (e.1 / 2 ^ 24 = c * 8 + d) && e.2.jblock == b && e.2.sectors != 0)).map (·.1)

/-- GC_START (R230, R241, R244, R245): a block that failed or was asked for, else, below 2,048 pages ahead, the ring block nearest
behind the head. -/
def execGcStart (k : SliceId) (j : ChanId) (d : DieId) (s : State) : Host.Outcome State Fault Refusal :=
  .next (
    let m := (s.slice k).media
    let cd := j.val * 8 + d.val
    let jn := m.journal cd
    if (s.slice k).st != .working || (SMap.get? m.gcs cd).isSome || m.deadDies.contains cd || SMap.getD m.health j.val 0 = 4 then s
    else
      let asked := (jn.failed ++ (m.collect.filter (fun x => x.1 = cd)).map (·.2)).find? (fun b => jn.ring.contains b)
      let pick := match asked with
        | some b => some b
        | none => if m.pagesAhead cd < 2048 then jn.ring.dropLast.getLast? else none
      match pick with
      | none => s
      | some b =>
        s.updMedia k (fun m =>
          let jn := if jn.ring.getLast? = some b then { jn with headPage := 512 } else jn
          { m with gcs := SMap.put m.gcs cd ⟨b, []⟩, journals := SMap.put m.journals cd jn }))

/-- Raise the copy of a live page at the journal head (R241 step 1): the reads of its sectors, and its writes and tag with the same contents, GEN,
SECTORS and KIND and a new SEQ. -/
def State.raiseCopy (s : State) (k : SliceId) (j : ChanId) (d : DieId) (g : Gc) (pk : Nat) (e : OvEntry) (olds : List (Nat × List Sense)) : State :=
  let cd := j.val * 8 + d.val
  let mand := decide ((s.slice k).media.pagesAhead cd < 256)
  match (s.slice k).media.takeHead s.beat.events j.val d.val with
  | none => s
  | some (jb, jp, m) =>
    let seq := m.seq + 1
    let s := s.updMedia k (fun _ => { m with seq := seq, gcs := SMap.put m.gcs cd { g with copies := g.copies ++ [⟨pk, jb, jp, seq, false, false⟩] } })
    let secs := (List.range 16).filter (fun sec => e.sectors.getLsbD sec)
    let s := secs.foldl (fun s sec => s.raiseOlds k .fw (.gc d.val) mand pk sec (.media true e.jblock e.jpage) olds) s
    let s := secs.foldl (fun s sec =>
      let (cws, s) := (List.range 4).foldl (fun (acc : List (BitVec 640) × State) i =>
        let (p, s) := acc.2.copyPart k pk (4 * sec + i) (.media true e.jblock e.jpage) olds false
        (acc.1 ++ [s.encodePart seq p], s)) ([], s)
      s.pushReq k j ⟨.fw, .write1, d, jb, jp, sec, 0, 0, sectorBytes cws, .gc d.val, 0, mand⟩) s
    s.pushReq k j ⟨.fw, .writeTag, d, jb, jp, 0, 0, 0, tagContents 0x1A e.kind.num pk e.gen.toNat seq.toNat 0 e.sectors.toNat 0, .gc d.val, 0, mand⟩

/-- Raise the read-back of a page for the test of R238: its tag, and every sector that it holds naming the set of band A0. -/
def State.raiseVerify (s : State) (k : SliceId) (j : ChanId) (rq : Rq) (d : DieId) (block page : Nat) (sectors : BitVec 16) (oneBit : Bool) (w : Work) (mand : Bool) : State :=
  let s := s.pushReq k j (ChReq.plain rq .readTag d block page 0 0 0 w 0 mand)
  ((List.range 16).filter (fun sec => sectors.getLsbD sec)).foldl (fun s sec =>
    s.pushReq k j (ChReq.plain rq .read d block page sec 0 (if oneBit then 16 else 0) w 0 mand)) s

/-- The copies of a collection that still stand for their page: its entry names the block collected. -/
def Media.liveCopies (m : Media) (g : Gc) : List GcCopy := g.copies.filter (fun c => (SMap.get? m.overlay c.key).any (fun e => e.jblock == g.block))

/-- GC_PAGE_COPY (R241): one command after another, every live page of the block is written again at the head; then every copy is read back; then, once each
has passed the test of R238, all are committed by OVERLAY_SET. `olds` is what the reads of the next page's lines bring, `back` a copy's read-back; a copy that
fails is made again. Not on an Exhausted channel (R251). -/
def execGcPageCopy (k : SliceId) (j : ChanId) (d : DieId) (olds : List (Nat × List Sense)) (back : PageRead) (s : State) : Host.Outcome State Fault Refusal :=
  .next (
    let m := (s.slice k).media
    let cd := j.val * 8 + d.val
    let mand := decide (m.pagesAhead cd < 256)
    match SMap.get? m.gcs cd with
    | none => s
    | some g =>
      let put := fun (m : Media) (cs : List GcCopy) => { m with gcs := SMap.put m.gcs cd { g with copies := cs } }
      let live := m.liveCopies g
      let left := (m.livePages j.val d.val g.block).filter (fun pk => !live.any (fun c => c.key = pk))
      let idle := (s.chan k j).workDone (.gc d.val) && live.all (fun c => (SMap.get? ((s.chan k j).dies[d]).banks (c.jblock % 16)).isNone)
      if SMap.getD m.health j.val 0 = 4 || !idle then s
      else if !left.isEmpty then
        match left.find? (fun pk => !m.drains.any (fun x => x.key = pk)) with
        | none => s
        | some pk =>
          match SMap.get? m.overlay pk with
          | none => s
          | some e =>
            let src := Source.media true e.jblock e.jpage
            let mine := (List.range 64).filter (fun i => e.sectors.getLsbD (i / 4))
            if mine.any (fun i => s.lineOpen k pk i src olds false) then s
            else
              -- an unreadable line of a Sealed page is stored poisoned under its version, which its nodes give
              let lost := mine.any (fun i => (goodTry (ladderTries (s.sourceStep k pk src) (sensesOf olds i))).isNone)
              match s.pageSeal k pk with
              | some i => if lost && !s.nodesHeld k i then s.fetchNodes k i else s.raiseCopy k j d { g with copies := live } pk e olds
              | none => s.raiseCopy k j d { g with copies := live } pk e olds
      else match live.find? (fun c => !c.verified) with
        | some c =>
          let sectors := ((SMap.get? m.overlay c.key).map (·.sectors)).getD 0
          if !c.asked then
            (s.updMedia k (fun m => put m (live.map (fun x => if x = c then { c with asked := true } else x)))).raiseVerify k j .fw d c.jblock c.jpage sectors true (.gc d.val) mand
          else s.updMedia k (fun m => put m (if pagePasses sectors back then live.map (fun x => if x = c then { c with verified := true } else x) else live.filter (· != c)))
        | none =>
          s.updMedia k (fun m => put (live.foldl (fun (m : Media) c => match SMap.get? m.overlay c.key with
            | some e => m.setOverlay s.beat.events c.key { e with jblock := c.jblock, jpage := c.jpage, seq := c.seq }
            | none => m) m) []))

/-- Release a block whose contents have moved (R237 step 5, R246): retired when its RESET_COUNT has reached 200,000, when it reported
WFAIL, or when it was unreadable while SUSPECT. -/
def State.releaseBlock (s : State) (k : SliceId) (j d b : Nat) (wfail : Bool) : State :=
  let m := (s.slice k).media
  let x := m.block j d b
  let s := s.updMedia k (fun m => { m.release s.beat.events j d b with unreadable := m.unreadable.filter (· != (j * 8 + d, b)) })
  if x.use == .retired then s
  else if wfail then s.retireBlock k j d b 5
  else if m.unreadable.contains (j * 8 + d, b) then s.retireBlock k j d b 6
  else if 200000 ≤ x.resets then s.retireBlock k j d b 2
  else s

/-- A block that holds no live page leaves its die's ring, recorded, and is released; the ring is refilled (R241 steps 4 and 5). -/
def State.leaveRing (s : State) (k : SliceId) (c d b : Nat) : State :=
  let cd := c * 8 + d
  let failed := ((s.slice k).media.journal cd).failed.contains b
  let s := s.updMedia k (fun m =>
    let m := m.log s.beat.events (.ring cd b false)
    let jn := m.journal cd
    { m with collect := m.collect.filter (fun x => x != (cd, b)),
             journals := SMap.put m.journals cd { jn with ring := jn.ring.filter (· != b), fresh := jn.fresh.filter (· != b), failed := jn.failed.filter (· != b) } })
  (s.releaseBlock k c d b failed).updMedia k (fun m => m.refillRing s.beat.events c d (b % 16) 20)

/-- GC_RELEASE (R241 steps 4 and 5): no entry names the block, so it leaves the ring and is released; the ring is refilled; not on an Exhausted channel (R251). -/
def execGcRelease (k : SliceId) (j : ChanId) (d : DieId) (s : State) : Host.Outcome State Fault Refusal :=
  .next (
    let m := (s.slice k).media
    let cd := j.val * 8 + d.val
    match SMap.get? m.gcs cd with
    | none => s
    | some g =>
      if !g.copies.isEmpty || !(m.livePages j.val d.val g.block).isEmpty || SMap.getD m.health j.val 0 = 4 then s
      else
        (s.updMedia k (fun m => { m with gcs := SMap.del m.gcs cd })).leaveRing k j.val d.val g.block)

/-! ## The map journal (R232, R233) -/

/-- The first n records of the buffer are in the ring copies named (R233). -/
def Media.copyRecords (m : Media) (n : Nat) (a b : Bool) : Media :=
  let rs := m.buffer.take n
  { m with
    ring := if a then ringAppend m.ring rs else m.ring
    ringB := if b then ringAppend m.ringB rs else m.ringB
    buffer := m.buffer.drop n
    copying := 0
    copyDue := false }

/-- Copy the whole buffer to both ring copies (R233). -/
def Media.copyBuffer (m : Media) : Media := m.copyRecords m.buffer.length true true

/-- Nothing of some work waits on the channels of the reserved area, and no write to the blocks named is under way there. -/
def State.areaIdle (s : State) (k : SliceId) (w : Work) (bl : Media → Nat → List Nat) : Bool :=
  areaChans.all (fun j => (s.chan k j).workDone w && (((s.chan k j).dies[(0 : DieId)]).banks.all (fun b => match b.2.op with
    | .write n => !(bl (s.slice k).media j.val).contains n
    | _ => true)))

/-- MAP_JOURNAL_COPY (R233): FW requests on channels 0 and 8 copy the buffer's records, in MAP_SEQ order, to both ring copies; when their writes have
ended the records are in the ring. What a write that was aborted or failed left out is written again (R206), that of a REGION record too. A copy whose channel
or die is gone stays behind. -/
def execMapJournalCopy (k : SliceId) (s : State) : Host.Outcome State Fault Refusal :=
  .next (
    let m := (s.slice k).media
    let raise := fun (s : State) (rs : List MapLog) (mand : Bool) =>
      let (n, s) := s.draw
      let mac := Config.freeValue n 56
      let s := if s.areaUp k 0 then s.raiseBehind k 0 m.ring rs m.flying mac mand else s
      if s.areaUp k 8 then s.raiseBehind k 8 m.ringB rs m.flying mac mand else s
    if !s.areaIdle k .mapCopy Media.ringBlocks then s
    else if m.copyBad then raise (s.updMedia k (fun m => { m with copyBad := false })) (m.buffer.take m.copying) (m.copyDue || m.flying != 0)
    else if m.copying ≠ 0 || m.flying ≠ 0 then
      s.updMedia k (fun m => if m.copying = 0 then { m with flying := 0 } else { m.copyRecords m.copying (s.areaUp k 0) (s.areaUp k 8) with flying := 0 })
    else if m.buffer.isEmpty || !(s.areaUp k 0 || s.areaUp k 8) then s
    else (raise s m.buffer m.copyDue).updMedia k (fun m => { m with copying := m.buffer.length }))

/-- MAP_RECORD_MANDATORY (R296): a record not yet copied is 48 beats old. -/
def execMapRecordMandatory (k : SliceId) (s : State) : Host.Outcome State Fault Refusal :=
  .next ((s.updMedia k (fun m => match m.buffer with
    | r :: _ => if r.at' + 48 ≤ s.beat.events then { m with copyDue := true } else m
    | [] => m)).mandate k)

/-! ## Checkpoints (R233) -/

/-- A checkpoint is valid once its CHECKPOINT record is in the ring (R233). -/
def Media.ckValid (m : Media) (area : Bool) (ck : Option Checkpoint) : Bool :=
  ck.any (fun c => (m.ring ++ m.ringB).any (fun r => r.rec' == .checkpoint area c.seq))

/-- The older area: area A is `true`, as in the record. -/
def Media.olderArea (m : Media) : Bool :=
  if !m.ckValid true m.ckA then true else if !m.ckValid false m.ckB then false
  else match m.ckA, m.ckB with
    | some a, some b => decide (a.seq ≤ b.seq)
    | _, _ => true

/-- A checkpoint begins: the image is taken, and the lines marked poisoned are recorded again behind it (R231, R233). What the area held is no checkpoint any
more. -/
def Media.beginCkpt (m : Media) (now : Nat) : Media :=
  if m.ckpt.isSome then m
  else
    let area := m.olderArea
    let image : Checkpoint := ⟨m.mapSeq, m.bmap, m.overlay, m.blocks, m.journals⟩
    let m := m.psnMarks.foldl (fun m e => m.log now (.linePoison e.1 e.2)) m
    { m with ckpt := some ⟨area, image, 0, false⟩, ckA := if area then none else m.ckA, ckB := if area then m.ckB else none }

/-- Pages of a checkpoint: 34 blocks (R222), which the block map, the overlay, the block-state records and the free lists fill (Table 04-2; that they follow one
another so is a DESIGN CHOICE, log entry 80). -/
def ckptPages : Nat := 17408

/-- Word n of a checkpoint's image. -/
def Checkpoint.word (c : Checkpoint) (n : Nat) : BitVec 64 :=
  (tableEntry c.bmap c.overlay c.blocks (sramArea (if n < 2 ^ 23 then 0x10100000 + 8 * n else 0x14D00000 + 8 * (n - 2 ^ 23)))).getD 0

/-- Raise the FW writes of one page of a checkpoint, in every copy of the reserved area that can be written. -/
def State.raiseCkpt (s : State) (k : SliceId) (run : CkptRun) (page : Nat) : State :=
  let (n, s) := s.draw
  let mac := Config.freeValue n 56
  (areaChans.filter (s.areaUp k)).foldl (fun s j =>
    let blk := ((s.slice k).media.ckptBlocks j.val run.area).getD (page / 512) 0
    let put := fun (s : State) (sq : SeqK) (sec : Nat) (pl : List Byte) => s.pushReq k j ⟨.fw, sq, 0, blk, page % 512, sec, 0, 0, pl, .ckpt, 0, false⟩
    let s := (List.range 16).foldl (fun s sec => put s .write1 sec
      (areaSector ((List.range 32).flatMap (fun w => leBytes 8 (run.image.word (512 * page + 32 * sec + w)).toNat)) mac)) s
    put s .writeTag 0 (tagContents 0x1E 0 page 0 0 0 0 0)) s

/-- A checkpoint whose pages have all been written takes its area, and its record follows (R233). -/
def Media.endCkpt (m : Media) (now : Nat) (run : CkptRun) (written : Bool) : Media :=
  let m := { m with ckpt := none }
  if !written then m
  else (if run.area then { m with ckA := some run.image } else { m with ckB := some run.image }).log now (.checkpoint run.area run.image.seq)

/-- One step of a checkpoint under way: the next page is raised once the writes of the one before have ended, a page whose write was aborted or failed again
(R206); after the last the checkpoint is done. With no copy of the reserved area to write to, there is nothing to write. -/
def State.ckptStep (s : State) (k : SliceId) (run : CkptRun) : State :=
  let up := areaChans.any (s.areaUp k)
  if up && !s.areaIdle k .ckpt (fun m j => m.ckptBlocks j run.area) then s
  else
    let page := if run.bad then run.page - 1 else run.page
    if !up || ckptPages ≤ page then s.updMedia k (fun m => m.endCkpt s.beat.events run up)
    else (s.raiseCkpt k run page).updMedia k (fun m => { m with ckpt := some { run with page := page + 1, bad := false } })

end Sys2Proof.Machine
end

