-- ==== Sys2Proof/Machine/Fold.lean ====
section
/-! DEFINITION. The fold engine, block resets and wear levelling (R235–R240, R244–R246, R253, R164). -/

namespace Sys2Proof.Machine

/-! ## Choosing a logical block (R235) -/

/-- Priority of a logical block: 1 overlay set or discard waiting, 2 refresh, 3 wear, 4 at least 16 entries; none otherwise. -/
def Media.foldClass (m : Media) (key : Nat) : Option Nat :=
  let e := m.entry key
  let c := key / 2 ^ 17
  let d := key / 2 ^ 14 % 8
  if m.urgent.contains key then some 1
  else if e.st == .mapped && ((m.block c d e.phys).refresh || m.refresh.contains (key, false)) then some 2
  else if m.refresh.contains (key, true) then some 3
  else if 16 ≤ (m.entriesOf key).length then some 4
  else none

/-- Logical blocks of a die that some priority names. -/
def Media.foldKeys (m : Media) (c d : Nat) : List Nat :=
  let all := m.urgent ++ m.refresh.map (·.1) ++ m.overlay.map (fun e => e.1 / 1024) ++
    (m.bmap.filter (fun e => e.2.st == .mapped && (m.block c d e.2.phys).refresh)).map (·.1)
  (all.filter (fun key => decide (key / 2 ^ 14 = c * 8 + d) && !(m.entry key).folding && (m.entry key).st != .dead)).eraseDups

/-- This logical block is its die's turn: no other of the die has a higher priority, nor, at priority 4, more entries. -/
def Media.foldTurn (m : Media) (key : Nat) : Bool :=
  match m.foldClass key with
  | none => false
  | some p => (m.foldKeys (key / 2 ^ 17) (key / 2 ^ 14 % 8)).all (fun o =>
      match m.foldClass o with
      | some q => decide (p < q) || (p == q && (p != 4 || decide ((m.entriesOf o).length ≤ (m.entriesOf key).length)))
      | none => true)

/-- Open fold set of a channel. -/
def Media.foldSet (m : Media) (c : Nat) : List FoldMember := SMap.getD m.folds c []

/-- FOLD_OPEN (R224, R236, R237 step 1): capture K's entries, take g, append FOLD_OPEN, open the ready block. -/
def execFoldOpen (k : SliceId) (key : Nat) (s : State) : Host.Outcome State Fault Refusal :=
  .next (
    let m := (s.slice k).media
    let c := key / 2 ^ 17
    let dd := key / 2 ^ 14 % 8
    let bank := key / 2 ^ 10 % 16
    let set := m.foldSet c
    let e := m.entry key
    if (s.slice k).st != .working || 16 ≤ c || m.deadDies.contains (c * 8 + dd) || !(s.chan k (ch16 c)).up || SMap.getD m.health c 0 = 4 || e.folding || e.st == .dead then s
    else if !m.foldTurn key || m.drains.any (fun d => d.key / 1024 = key) then s
    else if set.any (fun f => decide (f.die.val = dd) || f.page != 0) then s
    else match m.allocate c dd bank 1 (m.refresh.contains (key, true)) with
      | none => s
      | some n =>
        let g := e.drainGen
        let seq := m.seq + 1
        -- REFRESH and WEAR whatever named the block (R240)
        let fresh := (e.st == .mapped && (m.block c dd e.phys).refresh) || m.refresh.contains (key, false)
        let flags := bitAt fresh 1 + bitAt (m.refresh.contains (key, true)) 2
        let old := if e.st == .mapped then some e.phys else none
        let f : FoldMember := ⟨fin8 dd, key, n, old, g, seq, 0, 0, flags, [], false, 0, []⟩
        s.updMedia k (fun m =>
          let m := { m with overlay := m.overlay.map (fun (o : Nat × OvEntry) => if o.1 / 1024 = key then (o.1, { o.2 with captured := true }) else o), seq := seq }
          let m := m.log s.beat.events (.foldOpen key n g seq)
          let m := { m with bmap := SMap.put m.bmap key { e with folding := true, drainGen := g + 1 } }
          let m := m.setBlock s.beat.events c dd n { m.block c dd n with use := .openFold, untrusted := s.beat.epoch == Epoch.unfixed }
          { m with folds := SMap.put m.folds c (set ++ [f]) }))

/-- The whole image of a page from its sectors. -/
def pageImage (bs : List Byte) : BitVec 40960 := BitVec.ofNat 40960 (leVal bs)

/-- The member's last program has ended: nothing of it is raised, and its bank is idle. -/
def Chan.foldIdle (c : Chan) (f : FoldMember) : Bool := c.workDone (.fold f.key) && (SMap.get? (c.dies[f.die]).banks (f.blk % 16)).isNone

/-- FOLD_PAGE_PROGRAM (R236, R237 step 2): the next page of the die's block in the open set, once its row may start and the page
before it has been programmed; not on an Exhausted channel (R251). Its image enters the row's parity. Operand `olds` is what the dies return for the lines gathered. -/
def execFoldPageProgram (k : SliceId) (j : ChanId) (d : DieId) (olds : List (Nat × List Sense)) (s : State) : Host.Outcome State Fault Refusal :=
  .next (
    let m := (s.slice k).media
    let set := m.foldSet j.val
    match set.find? (fun f => f.die == d) with
    | none => s
    | some f =>
      let p := f.page
      if 1024 ≤ p || SMap.getD m.health j.val 0 = 4 || set.any (fun g => decide (g.page < p) || (decide (g.page = p) && !(s.chan k j).foldIdle g)) || 96 ≤ p - f.verified then s
      else
        let pk := f.key * 1024 + p
        -- a line that is encoded afresh in a Sealed page takes its version from the group's nodes
        let src := fun (i : Nat) => m.resolve pk (i / 4) true
        let fresh := (List.range 64).any (fun i => match src i with
          | .media _ _ _ => (goodTry (ladderTries (s.sourceStep k pk (src i)) (sensesOf olds i))).isNone
          | _ => true)
        if (List.range 64).any (fun i => s.lineOpen k pk i (src i) olds false) then s
        else match (if fresh then (s.pageSeal k pk).filter (fun i => !s.nodesHeld k i) else none) with
        | some i => s.fetchNodes k i
        | none =>
          let mand := s.foldMandatory k f.key
          let s := (List.range 16).foldl (fun s sec => s.raiseOlds k .fd (.fold f.key) mand pk sec (m.resolve pk sec true) olds) s
          let (parts, s) := (List.range 64).foldl (fun (acc : List DrainPart × State) i =>
            let (x, s) := acc.2.copyPart k pk i (m.resolve pk (i / 4) true) olds false
            (acc.1 ++ [x], s)) ([], s)
          let bytes := sectorBytes (parts.map (s.encodePart f.seq))
          let tag := tagContents 0x2D ((if p = 1023 then 1 else 0) + f.flags) pk f.gen.toNat f.seq.toNat 0 0xFFFF (f.old.getD 0)
          let f' := { f with page := p + 1, staged := bytes ++ tag, images := f.images ++ [(p, pageImage bytes)] }
          let s := (f'.loads mand).foldl (fun s r => s.pushReq k j r) s
          s.updMedia k (fun m => { m with
            folds := SMap.put m.folds j.val (set.map (fun g => if g.die == d then f' else g)) }))

/-- FOLD_ROW_VERIFY (R238, R239): once the next row is programmed, or the blocks have closed, the tag and every sector of the row's pages are read naming
A0; when those reads have ended, `pages` is what they brought, and a die whose page fails drops from the set. The row's parity is discarded. Not on an
Exhausted channel (R251). -/
def execFoldRowVerify (k : SliceId) (j : ChanId) (row : Nat) (pages : List (DieId × PageRead)) (s : State) : Host.Outcome State Fault Refusal :=
  .next (
    let c := s.chan k j
    let set := (s.slice k).media.foldSet j.val
    let put := fun (s : State) (g : FoldMember → FoldMember) => s.updMedia k (fun m => { m with folds := SMap.put m.folds j.val ((m.foldSet j.val).map g) })
    let ends := fun (f : FoldMember) => decide (row + 3 ≤ f.page) || (decide (min 1024 (row + 2) ≤ f.page) && c.foldIdle f)
    if set.isEmpty || 1024 ≤ row || SMap.getD (s.slice k).media.health j.val 0 = 4 || !(set.all (fun f => f.verified == row)) then s
    else if !set.all (·.asked) then
      if !set.all ends then s
      else set.foldl (fun s f => s.raiseVerify k j .fd f.die f.blk row 0xFFFF false (.fold f.key) (s.foldMandatory k f.key)) (put s (fun f => { f with asked := true }))
    else if !set.all (fun f => c.workDone (.fold f.key)) then s
    else
      let passed := fun (f : FoldMember) => (pages.find? (fun p => p.1 == f.die)).any (fun p => pagePasses 0xFFFF p.2)
      let s := put s (fun f => { f with asked := false, verified := if passed f then row + 1 else f.verified, images := f.images.filter (fun x => x.1 != row) })
      (set.filter (fun f => !passed f)).foldl (fun s f => (s.dropWork k j (.fold f.key)).dropFold k j.val f.die.val f.key f.blk false) s)

/-- Open-row parity of a channel's row (R236): the XOR of the page images that the set's members hold of it. -/
def Media.rowParity (m : Media) (c row : Nat) : Option (BitVec 40960) :=
  match ((m.foldSet c).flatMap (·.images)).filter (fun x => x.1 = row) with
  | [] => none
  | xs => some (xs.foldl (fun p x => p ^^^ x.2) 0)

/-- What a channel's open-row parity area holds in one of its 96 places, row by row in turn. -/
def Media.parityAt (m : Media) (c place : Nat) : Option (BitVec 40960) :=
  (((m.foldSet c).flatMap (·.images)).find? (fun x => x.1 % 96 = place)).bind (fun x => m.rowParity c x.1)

/-- Commit a verified block as K's mapping (R237 steps 4 and 5, R242): entries for which `clear` holds are cleared, the old block is
released. A WEAR mark that came too late for the fold stays (R253). -/
def State.commitFold (s : State) (k : SliceId) (j d key n : Nat) (old : Option Nat) (g : BitVec 16) (beat : BitVec 48) (worn : Bool) (clear : OvEntry → Bool) : State :=
  let band := ((s.chan k (ch16 j)).dies[fin8 d]).band
  let s := s.updMedia k (fun m =>
    let m := m.log s.beat.events (.foldCommit key n (old.getD 0) g beat)
    let e := m.entry key
    { m with bmap := SMap.put m.bmap key { e with phys := n, blockGen := g, st := .mapped, folding := false }
             overlay := m.overlay.filter (fun o => !(decide (o.1 / 1024 = key) && clear o.2))
             urgent := m.urgent.filter (· != key)
             refresh := m.refresh.filter (fun r => r.1 != key || (r.2 && !worn))
             folds := m.folds.map (fun c => (c.1, c.2.filter (fun f => f.key != key))) })
  let s := s.updMedia k (fun m => m.setBlock s.beat.events j d n { m.block j d n with use := .data, beat := beat, tempMax := band, aborted := false })
  match old with
  | some b => s.releaseBlock k j d b false
  | none => s

/-- FOLD_COMMIT (R237 steps 4 and 5): the die's block is closed and every row of it verified; not on an Exhausted channel (R251). -/
def execFoldCommit (k : SliceId) (j : ChanId) (d : DieId) (s : State) : Host.Outcome State Fault Refusal :=
  .next (match ((s.slice k).media.foldSet j.val).find? (fun f => f.die == d) with
    | some f => if f.verified = 1024 && SMap.getD (s.slice k).media.health j.val 0 != 4 then
        s.commitFold k j.val d.val f.key f.blk f.old f.gen f.beat (f.flags / 4 % 2 = 1) (·.captured) else s
    | none => s)

/-! ## Resets and wear (R237 step 6, R241 step 5, R253) -/

/-- Mode a bank's free list needs: 1-bit while its ring and ready 1-bit blocks are fewer than 20 (Table 07-4; log entry 18). -/
def Media.needOneBit (m : Media) (c d bank : Nat) : Bool :=
  let j := m.journal (c * 8 + d)
  let ready := (m.blocks.filter (fun e => decide (e.1 / 16384 = c * 8 + d) && decide (e.1 % 16 = bank) && e.2.use == .ready && e.2.mode == 2 && !j.ahead.contains (e.1 % 16384))).length
  decide (j.inBank bank + ready < 20)

/-- BLOCK_RESET (R237 step 6): 16 beats after its release a block is reset under FD; never a retired one, nor one of an Exhausted
channel (R246, R251). -/
def execBlockReset (k : SliceId) (j : ChanId) (d : DieId) (blk : Nat) (s : State) : Host.Outcome State Fault Refusal :=
  .next (
    let m := (s.slice k).media
    let x := m.block j.val d.val blk
    if (s.slice k).st != .working || x.use != .released || s.beat.events < x.freed + 16 && x.freed != 0 || SMap.getD m.health j.val 0 = 4 || m.deadDies.contains (j.val * 8 + d.val) then s
    else if !(s.chan k j).workDone (.reset d.val blk) || ((s.chan k j).dies[d]).banks.any (fun b => match b.2.op with | .reset n _ => n = blk | _ => false) then s
    else s.pushReq k j (ChReq.plain .fd .resetBlock d blk (if m.needOneBit j.val d.val (blk % 16) then 1 else 0) 0 0 0 (.reset d.val blk) 0 false))

/-- Wear levelling of a bank (R253): when its highest RESET_COUNT exceeds its lowest by more than 4,096, the logical block mapped to
the lowest-count block is to be folded with the WEAR flag. -/
def Media.levelWear (m : Media) (c d bank : Nat) : Media :=
  let good := m.blocks.filter (fun e => decide (e.1 / 16384 = c * 8 + d) && decide (e.1 % 16 = bank) && e.2.use != .retired)
  let hi := good.foldl (fun n e => max n e.2.resets) 0
  if good.length + (m.blocks.filter (fun e => decide (e.1 / 16384 = c * 8 + d) && decide (e.1 % 16 = bank) && e.2.use == .retired)).length < 1024 then m
  else match good.foldl (fun (acc : Option (Nat × Nat)) e => match acc with
      | none => some (e.1 % 16384, e.2.resets)
      | some (_, n) => if e.2.resets < n then some (e.1 % 16384, e.2.resets) else acc) none with
    | none => m
    | some (b, lo) =>
      if hi ≤ lo + 4096 then m
      else match m.bmap.find? (fun e => decide (e.1 / 2 ^ 14 = c * 8 + d) && e.2.st == .mapped && e.2.phys == b) with
        | some (key, _) => if m.refresh.any (fun r => r.1 = key) then m else { m with refresh := m.refresh ++ [(key, true)] }
        | none => m

/-- ARRAY_OPERATION_COMPLETE (R164, R237): the bank is free. A completed reset makes its block ready in its mode with READ_COUNT 0 and
RESET_COUNT one more, and the ring may take it; a program's end dates its fold, and the last closes its block, whose parity goes (R236). -/
def execArrayOperationComplete (k : SliceId) (j : ChanId) (d : DieId) (b : BankId) (s : State) : Host.Outcome State Fault Refusal :=
  .next (match SMap.get? ((s.chan k j).dies[d]).banks b.val with
    | none => s
    | some x =>
      if x.paused then s
      else
        let s := s.setBank k j d b.val none
        match x.op with
        | .reset blk one =>
          let bl := (s.slice k).media.block j.val d.val blk
          if bl.use == .retired then s
          else s.updMedia k (fun m =>
            let m := m.setBlock s.beat.events j.val d.val blk
              { bl with use := .ready, mode := if one then 2 else 1, reads := 0, resets := bl.resets + 1, aborted := false, refresh := false, untrusted := false }
            (m.refillRing s.beat.events j.val d.val b.val 20).levelWear j.val d.val b.val)
        | .program blk page => s.updMedia k (fun m => { m with folds := m.folds.map (fun c => if c.1 = j.val then
            (c.1, c.2.map (fun f => if f.die == d && f.blk == blk then
              { f with beat := s.beat.now.setWidth 48, staged := [], images := if page = 1023 then [] else f.images } else f)) else c) })
        | .write _ => s)

end Sys2Proof.Machine
end

