-- ==== Sys2Proof/Machine/Ports.lean ====
section
/-! DEFINITION. Links, IDE, the register window, the telemetry queues and the port reach (chapter 02, R496, R504–R509). -/

namespace Sys2Proof.Machine

/-! ## Training (R41) -/

/-- The first flit mode that both ends support at rate i of 8, 16, 32 and 64 GT/s; the port has no 68-byte flits at 64 GT/s (Table 02-1). -/
def bestFlit (h : LinkCaps) (i : Nat) : Option Flit :=
  if h.flitLo256.getLsbD i then some .lo256 else if h.flit256.getLsbD i then some .std256
  else if h.flit68.getLsbD i && i != 3 then some .f68 else none

/-- The highest rate at which both ends share a flit mode, with that mode; none when no reference clock option is shared (Table 02-1). -/
def bestRate (h : LinkCaps) : Option (Nat × Flit) :=
  if h.clock == .separateSpread then none
  else [(h.g64, 3), (h.g32, 2), (h.g16, 1), (h.g8, 0)].findSome? (fun r => if r.1 then (bestFlit h r.2).map (fun f => (8 * 2 ^ r.2, f)) else none)

/-- Widest width both ends support. -/
def bestWidth (h : LinkCaps) : Option Nat := if h.x16 then some 16 else if h.x8 then some 8 else if h.x4 then some 4 else none

/-- A host's offer cut to the port's training limits under the profile in force (Table 15-6, R490). -/
def State.limitCaps (s : State) (p : Port) (h : LinkCaps) : LinkCaps :=
  let b := s.profByte (49 + 2 * p.val)
  let w := (b.extractLsb' 0 2).toNat
  let r := (b.extractLsb' 2 3).toNat
  { h with x16 := h.x16 && w == 0, x8 := h.x8 && decide (w ≤ 1), g64 := h.g64 && r == 0, g32 := h.g32 && decide (r ≤ 1), g16 := h.g16 && decide (r ≤ 2) }

/-- LINK_TRAINING (R41): an enabled port that no reset holds trains to the best shared option, or stays down. -/
def execLinkTraining (p : Port) (host : LinkCaps) (s : State) : Host.Outcome State Fault Refusal :=
  .next (
    let h := s.head p
    if s.present p && h.enabled && h.held == 0 && s.power.flush == .idle && !s.power.sramLoss && s.serdesRails then
      let host := s.limitCaps p host
      let l : Option Link := match bestWidth host, bestRate host with
        | some w, some (r, f) => some ⟨w, r, f, host.clock, false⟩
        | _, _ => none
      (s.updHead p (fun h => { h with link := l })).grantCredits
    else s)

/-! ## IDE (R60–R63) -/

/-- IDE_KM_MESSAGE (R60): accepted only while the port holds KEYS; the stream becomes Secure. -/
def execIdeKmMessage (p : Port) (mem : Bool) (key : BitVec 256) (s : State) : Host.Outcome State Fault Refusal :=
  .next (if (s.roles p).getLsbD 2 then
      (s.updHead p (fun h => if mem then { h with ideMem := ⟨.secure, key⟩ } else { h with ideIo := ⟨.secure, key⟩ })).grantCredits
    else s)

/-- IDE_MAC_FAILURE (R62): the stream becomes Insecure and an alarm with cause 3 is raised. -/
def execIdeMacFailure (p : Port) (mem : Bool) (s : State) : Host.Outcome State Fault Refusal :=
  .next (
    let h := s.head p
    let st := if mem then h.ideMem.st else h.ideIo.st
    if s.present p && st == .secure then
      let s := s.updHead p (fun h => if mem then { h with ideMem := { h.ideMem with st := .insecure } } else { h with ideIo := { h.ideIo with st := .insecure } })
      (s.count p 0x10C).alarm 3 p.val 0 0
    else s)

/-- GPF_REQUEST (R50): both phases complete as soon as the request is seen; nothing else changes. -/
def execGpfRequest (p : Port) (phase2 : Bool) (s : State) : Host.Outcome State Fault Refusal := .next (s.emit (.gpf p phase2))

/-- The port takes accesses of CXL.io: present, and its CXL.io stream not Insecure (R62). -/
def State.ioOpen (s : State) (p : Port) : Bool := s.present p && (s.head p).ideIo.st != .insecure

/-! ## The port reach (R76) -/

/-- Set a ZOR_CAUSE bit in every head's copy (R451). -/
def State.causeAll (s : State) (bit : Nat) : State := s.mapHeads (fun h => { h with cause := { h.cause with bits := setBit h.cause.bits bit true } })

/-- A queue flushed and disabled by a reset, its SECTIONS back at 0x0001 and the last value read 0 (R76, R507, R530, Table 14-2); the head's other queue registers keep their contents. -/
def Queue.disabled (q : Queue) : Queue := { q with q := [], last := 0, dropped := 0, enable := false, sections := 1 }

/-- State of a head that a port reach returns to its reset values (R76, R528, R53, Table 14-2). A doorbell that waits, its command not begun, is kept and runs
later (DESIGN CHOICE: R76 speaks of a command that is executing; log entry 22). -/
def Head.portReset (h : Head) : Head :=
  { h with link := none, dec := Vector.replicate 8 Decoder.reset, ideMem := IdeStream.reset, ideIo := IdeStream.reset,
           msix := Vector.replicate 8 Msix.reset, pba := 0, bar0 := 0, bar2 := 0, l1Enable := false, credD := 0, credR := 0,
           window := 0, inflight := [], viralEn := false, viral := false, tq := h.tq.disabled, latch := [], userRead := false }

/-- A foreground command of head p runs: a ledger store or a write-group fence of it has not ended. -/
def State.headBusy (s : State) (p : Port) : Bool :=
  (match s.firm.store with | some (.head q, _, _) => q == p | _ => false) || s.firm.fences.any (fun f => f.1.port == p)

/-- Port reach of HPk: reads of the port in flight are discarded, its writes finish their commit, and a mailbox command that runs, in the
foreground or the background, ends without its response (R76). -/
def State.portReach (s : State) (p : Port) : State :=
  let busy := s.headBusy p
  let s := s.updHead p (fun h => { h.portReset with muted := h.muted || busy, mutedBg := h.bg.isSome })
  let s := s.mapSlices (fun x => { x with
    waiting := x.waiting.filter (fun r => r.write || r.port != p)
    heldReqs := x.heldReqs.filter (fun r => r.req.write || r.req.port != p)
    reads := x.reads.filter (fun r => match r.why with | .host q => q.port != p || r.done | _ => true) })
  s.grantCredits

/-- A start runs: the package's or some slice's. -/
def State.starting (s : State) : Bool := !s.rst.todo.isEmpty || s.sliceIds.any (fun k => !(s.slice k).todo.isEmpty)

/-- LAST_REACH of one head (R453): the widest reach among the resets of one start. -/
def State.lastReach (s : State) (p : Port) (n : BitVec 3) : State :=
  let old := (s.head p).cause.lastReach
  let n := if s.starting && old != 0 && decide (old.toNat < n.toNat) then old else n
  s.updHead p (fun h => { h with cause := { h.cause with lastReach := n } })

/-- A port source takes effect: cause bit and LAST_REACH in head p's copy, then the port reach. A source asserted while the
port is held already adds only its cause bit (R462). -/
def State.portSource (s : State) (p : Port) (bit : Nat) : State :=
  let already := (s.head p).held != 0
  let s := s.updHead p (fun h => { h with cause := { h.cause with bits := setBit h.cause.bits bit true }, held := setBit h.held (bit - 8) true })
  if already then s else (s.portReach p).lastReach p 4

/-- HOT_RESET (R76, R465): a CXL hot reset acts at once. -/
def execHotReset (p : Port) (s : State) : Host.Outcome State Fault Refusal :=
  .next (if s.present p then s.portSource p 9 else s)

/-- REFCLK_STOP (Table 16-1): the link goes down and the port takes its reach; Table 14-1 gives this no ZOR_CAUSE bit. -/
def execRefclkStop (p : Port) (s : State) : Host.Outcome State Fault Refusal :=
  .next (if !s.present p then s
    else
      let already := (s.head p).held != 0
      let s := s.updHead p (fun h => { h with held := setBit h.held 2 true })
      if already then s else (s.portReach p).lastReach p 4)

/-! ## HDM decoders (R45, R46) -/

/-- Ways and granularities of R45. -/
def legalHdm (d : HdmReq) : Bool :=
  [1, 2, 3, 4, 6, 8, 12, 16].contains d.ways && [256, 512, 1024, 2048, 4096, 8192, 16384].contains d.gran &&
    d.base % 2 ^ 28 == 0 && d.size % 2 ^ 28 == 0 && d.skip % 2 ^ 28 == 0

/-- DPA range of each committed decoder but number i: first and end. -/
def Head.dpaRanges (h : Head) (i : Nat) : List (Nat × Nat) :=
  (((decBases h.dec.toList 0).zip (List.range 8)).filter (fun c => c.1.1.committed && c.2 != i)).map
    (fun c => (c.1.2 + c.1.1.skip, c.1.2 + c.1.1.skip + c.1.1.size / c.1.1.ways))

/-- HDM_DECODER_COMMIT (R45, R46): commits, or reports Error Not Committed and leaves the decoder as it was; a locked
decoder is not changed. -/
def execHdmDecoderCommit (p : Port) (i : Fin 8) (d : HdmReq) (s : State) : Host.Outcome State Fault Refusal :=
  .next (
    let h := s.head p
    if !s.ioOpen p then s
    else if (h.dec[i]).lock && (h.dec[i]).committed then s.emit (.hdm p false)
    else
      let new : Decoder := ⟨true, d.lock, d.base, d.size, d.skip, d.ways, d.gran⟩
      let h' := { h with dec := h.dec.set i new }
      let base := ((decBases h'.dec.toList 0)[i.val]?).map (·.2) |>.getD 0
      let lo := base + d.skip
      let hi := lo + d.size / max 1 d.ways
      let clash := (h'.dpaRanges i.val).any (fun r => decide (r.1 < hi ∧ lo < r.2))
      if legalHdm d && decide (hi ≤ s.capacity) && !clash && (h'.dpaRanges i.val).all (fun r => decide (r.2 ≤ s.capacity)) then
        (s.updHead p (fun _ => h')).emit (.hdm p true)
      else s.emit (.hdm p false))

/-! ## The register window (R77–R80) -/

/-- Bits that a write of value v changes under RW1C: set bits of v within the mask clear. -/
def w1c {w : Nat} (old : BitVec w) (v : BitVec w) (mask : BitVec w) : BitVec w := old &&& ~~~(v &&& mask)

/-! ### Configuration space (R43, R50, R53)

The offsets are the model's: the specification says what the registers report and leaves their places and layouts to CXL 3.1 (PRESUMED; log
entry 67). The space stands 64 KiB above the register window. -/

/-- The function's configuration space. -/
def configBase : Nat := 0x10000

/-- Bits of a BAR pair that software writes: both map 64 KiB (R43). -/
def barMask : BitVec 64 := 0xFFFFFFFFFFFF0000

/-- Header of a designated vendor-specific extended capability of CXL: length, revision and the offset of the next one. -/
def dvsec (len rev next : Nat) : BitVec 64 := BitVec.ofNat 64 (0x0023 + 2 ^ 16 + next * 2 ^ 20 + (0x1E98 + rev * 2 ^ 16 + len * 2 ^ 20) * 2 ^ 32)

/-- Link status: rate and width negotiated, and link control: L1 entry enabled. -/
def Head.linkReg (h : Head) : BitVec 64 :=
  BitVec.ofNat 64 (bitAt h.l1Enable 1 + (match h.link with
    | some l => (if l.rate = 64 then 6 else if l.rate = 32 then 5 else if l.rate = 16 then 4 else 3) * 2 ^ 16 + l.width * 2 ^ 20
    | none => 0))

/-- A 64-bit register of the configuration space: the identifiers, revision and class code, the BAR pairs (64-bit, non-prefetchable), link
control, viral control and status, the GPF DVSEC (phase 2: 1 µs, 0 mW), and the register locator, whose entries name the register window in
BAR0/1 and the mailbox payload in BAR2/3. -/
def State.configReg (s : State) (p : Port) (off : Nat) : BitVec 64 :=
  let h := s.head p
  if off = 0x00 then BitVec.ofNat 64 (Config.vendorId.toNat + (0x5A00 + s.nSlices) * 2 ^ 16)
  else if off = 0x08 then 0x050210B0
  else if off = 0x10 then h.bar0 ||| 4
  else if off = 0x18 then h.bar2 ||| 4
  else if off = 0x80 then h.linkReg
  else if off = 0x100 then dvsec 0x40 3 0x140
  else if off = 0x108 then BitVec.ofNat 64 (0x4004 * 2 ^ 16 + bitAt h.viralEn 46 + bitAt h.viral 62)
  else if off = 0x140 then dvsec 0x10 0 0x180
  else if off = 0x148 then BitVec.ofNat 64 (5 + 1 * 2 ^ 16 + 0 * 2 ^ 32)
  else if off = 0x180 then dvsec 0x20 0 0
  else if off = 0x188 then 8
  else if off = 0x190 then BitVec.ofNat 64 (0 + 1 * 2 ^ 8)
  else if off = 0x198 then BitVec.ofNat 64 (2 + 3 * 2 ^ 8)
  else 0

/-- A write to the configuration space: the BAR pairs, viral enable, and L1 entry, which takes an idle link to L1 (Table 02-1) and, disabled,
brings it back. -/
def State.writeConfig (s : State) (p : Port) (off : Nat) (lanes v : BitVec 64) : State :=
  let bar := fun (old : BitVec 64) => ((old &&& ~~~lanes) ||| (v &&& lanes)) &&& barMask
  if off = 0x10 then s.updHead p (fun h => { h with bar0 := bar h.bar0 })
  else if off = 0x18 then s.updHead p (fun h => { h with bar2 := bar h.bar2 })
  else if off = 0x80 && lanes.getLsbD 1 then
    s.updHead p (fun h => { h with l1Enable := v.getLsbD 1, link := h.link.map (fun l => { l with l1 := v.getLsbD 1 && h.inflight.isEmpty }) })
  else if off = 0x108 && lanes.getLsbD 46 then s.updHead p (fun h => { h with viralEn := v.getLsbD 46 })
  else s

/-! ### The window -/

/-- A write to TQ_CTRL (R16, R508): a set FLUSH empties the queue and clears DROPPED first, then the other fields take the write. -/
def Queue.writeCtrl (q : Queue) (v : BitVec 64) : Queue :=
  let q := if v.getLsbD 1 then { q with q := [], dropped := 0 } else q
  { q with enable := v.getLsbD 0, threshold := v.extractLsb' 8 10, irqEn := v.getLsbD 18 }

/-- A 1 written to ZOR_ALARM[0] (Table 02-11): a MANAGE port clears every head's copy and releases SEC_ALARM_L; any other port clears its own copy. -/
def State.clearAlarm (s : State) (p : Port) : State :=
  let clear := fun (h : Head) => { h with alarm := ⟨false, 0, 0, 0, 0⟩ }
  if s.hasManage p then
    let s := s.mapHeads clear
    if s.power.secAlarmL then s
    else
      let s := { s with power := { s.power with secAlarmL := true } }
      if s.power.statusOut then s.emit (.pin .secAlarmL true) else s
  else s.updHead p clear

/-- A write to the MSI-X table (R44): address, data, vector control; a pending vector is sent when unmasked. -/
def State.writeMsix (s : State) (p : Port) (off : Nat) (lanes v : BitVec 64) : State :=
  let n := (off - 0xE000) / 16
  if hn : n < 8 then
    let e := (s.head p).msix[n]
    let old : BitVec 64 := if off % 16 < 8 then e.addr else BitVec.ofNat 64 (e.data.toNat + bitAt e.masked 32)
    let new := (old &&& ~~~lanes) ||| (v &&& lanes)
    let e' : Msix := if off % 16 < 8 then { e with addr := new } else { e with data := new.setWidth 32, masked := new.getLsbD 32 }
    let s := s.updHead p (fun h => { h with msix := h.msix.set n e' })
    if e.masked && !e'.masked && (s.head p).pba.getLsbD n then
      (s.updHead p (fun h => { h with pba := setBit h.pba n false })).emit (.msix p ⟨n, hn⟩)
    else s
  else s

/-- Telemetry vector 5 rule (R509): sent when LEVEL crosses its threshold upward while enabled. -/
def State.tqLevel (s : State) (p : Port) (before : Nat) : State :=
  let q := (s.head p).tq
  if q.irqEn && decide (before < q.threshold.toNat) && decide (q.threshold.toNat ≤ q.q.length) then s.msix p 5 else s

/-- REGISTER_WRITE (R15, R16): each field follows its access code; registers with rows of their own, RO registers and
offsets without a register are unchanged (R13). `off` is the byte offset; a 32-bit write carries its half in place. While the CXL.io stream is
Insecure nothing is accepted (R62). -/
def execRegisterWrite (p : Port) (off : Nat) (wide : Bool) (v : BitVec 64) (s : State) : Host.Outcome State Fault Refusal :=
  .next (
    let reg := off / 8 * 8
    let lanes : BitVec 64 := if wide then BitVec.allOnes 64 else if off % 8 = 0 then 0xFFFFFFFF else 0xFFFFFFFF00000000
    let v : BitVec 64 := if wide || off % 8 = 0 then v &&& lanes else v <<< 32
    if !s.ioOpen p then s
    else if configBase ≤ reg then s.writeConfig p (reg - configBase) lanes v
    else if reg = 0x8010 then (if v.getLsbD 0 then s.clearAlarm p else s)
    else if reg = 0x8018 then
      s.updHead p (fun h => { h with cause := { h.cause with bits := w1c h.cause.bits (v.setWidth 11) 0x7FF, sliceMask := w1c h.cause.sliceMask (v.extractLsb' 16 8) 0xFF } })
    else if reg = 0x8048 then
      { s with beat := { s.beat with codeErr := s.beat.codeErr && !v.getLsbD 5, resync := s.beat.resync && !v.getLsbD 6, backward := s.beat.backward && !v.getLsbD 7 } }
    else if reg = 0x8108 then
      s.updHead p (fun h => { h with tq := { h.tq with underrun := h.tq.underrun && !v.getLsbD 16, overrun := h.tq.overrun && !v.getLsbD 17 } })
    else if reg = 0x8110 then
      if lanes.getLsbD 0 then s.updHead p (fun h => { h with tq := h.tq.writeCtrl v }) else s
    else if 0xE000 ≤ reg ∧ reg < 0xE080 then s.writeMsix p reg lanes v
    else if reg = 0x2200 ∧ lanes.getLsbD 32 then
      s.updHead p (fun h => { h with dbInt := v.getLsbD 33, bgInt := v.getLsbD 34 })
    else s)

/-- The Reset column of Tables 02-9 to 02-19: what a register reads as before a baton has carried its first value. -/
def State.regReset (s : State) (p : Port) (off : Nat) : BitVec 64 :=
  if off = 0x8000 then BitVec.ofNat 64 (0x7A50 + s.nSlices * 2 ^ 16 + 0xB0 * 2 ^ 24 + p.val * 2 ^ 32 + (if s.fused.gradeE then 2 ^ 35 else 0))
  else if off = 0x8018 then 0x1001
  else if off = 0x8048 then 3
  else if off = 0x8050 then BitVec.ofNat 64 (100 * 2 ^ 32 + 95 * 2 ^ 40)
  else if off = 0x8058 then BitVec.ofNat 64 (64 * s.nSlices * 2 ^ 32 + 2 ^ 46)
  else if off = 0x8108 then 0x40000
  else 0

/-- The fields of the vendor block that a host writes (RW, RW1C): read as they are now. Every other field is RO and is shadowed (R78). -/
def hostFields (off : Nat) : BitVec 64 :=
  if off = 0x8010 then 1
  else if off = 0x8018 then 0xFF07FF
  else if off = 0x8048 then 0xE0
  else if off = 0x8108 then 0x30000
  else if off = 0x8110 then 0x7FF01
  else 0

/-- The value shadowed for a register: what the last baton carried, or the reset value. -/
def State.carried (s : State) (p : Port) (off : Nat) : BitVec 64 := SMap.getD (s.head p).shadow off (s.regReset p off)

/-- The primary mailbox registers at 0x2200: payload size 64 KiB (2¹⁶), doorbell and background interrupts offered, doorbell, and the two
interrupt enables (layout CXL 3.1's: PRESUMED, log entry 67). -/
def State.mailboxReg (s : State) (p : Port) : BitVec 64 :=
  BitVec.ofNat 64 (16 + 2 ^ 5 + 2 ^ 6 + bitAt (s.headBusy p || !(s.head p).doorbells.isEmpty) 32 + bitAt (s.head p).dbInt 33 + bitAt (s.head p).bgInt 34)

/-- What a host reads of a register (R77, R78): BEAT_NOW included, as its baton carried it. A counter page that is not released reads zero (R528). -/
def State.regRead (s : State) (p : Port) (off : Nat) : BitVec 64 :=
  if 0x8000 ≤ off ∧ off < 0xA000 then
    if off = 0x8100 then (s.head p).tq.last
    else if 0x9000 ≤ off && !(s.head p).userRead then 0
    else (s.regNow p off &&& hostFields off) ||| (s.carried p off &&& ~~~hostFields off)
  else if 0xE000 ≤ off ∧ off < 0xF000 then (s.head p).regMsix off
  else if 0x1000 ≤ off ∧ off < 0x2500 then
    if off = 0x2200 then s.mailboxReg p else Config.cxlRegister off s.free
  else if configBase ≤ off then s.configReg p (off - configBase)
  else 0

/-- A read of TQ_DATA (R507): the oldest entry leaves, or the last value is read again with UNDERRUN. -/
def State.popQueue (s : State) (p : Port) : BitVec 64 × State :=
  let (v, tq) : BitVec 64 × Queue := match (s.head p).tq.q with
    | (w, _) :: rest => (w, { (s.head p).tq with q := rest, last := w })
    | [] => ((s.head p).tq.last, { (s.head p).tq with underrun := true })
  (v, s.updHead p (fun h => { h with tq := tq }))

/-- Give a register's value to the host: whole, or its low half, latching the high half for the next read of it from this head (R77). -/
def State.giveReg (s : State) (p : Port) (reg : Nat) (wide : Bool) (v : BitVec 64) : State :=
  if wide then s.emit (.reg p reg v)
  else (s.updHead p (fun h => { h with latch := SMap.put h.latch reg (v.extractLsb' 32 32) })).emit (.reg p reg (v &&& 0xFFFFFFFF))

/-- REG_LOW_HALF_READ (R77): an aligned 64-bit read, a 32-bit read of the low half, which latches the high half, or the read of a high half,
which takes the latched value when the same head has latched one. -/
def execRegLowHalfRead (p : Port) (r : RegAt) (s : State) : Host.Outcome State Fault Refusal :=
  .next (
    if !s.ioOpen p then s
    else
      let s := { s with free := s.free + 1 }
      let reg := r.off / 8 * 8
      if r.off % 8 = 0 then
        if reg = 0x8100 then let x := s.popQueue p; x.2.giveReg p reg r.wide x.1
        else s.giveReg p reg r.wide (s.regRead p reg)
      else
        let hi := (SMap.get? (s.head p).latch reg).getD ((s.regRead p reg).extractLsb' 32 32)
        (s.updHead p (fun h => { h with latch := SMap.del h.latch reg })).emit (.reg p r.off (hi.setWidth 64)))

/-- Bits of a register whose change sends vector 7 (Table 02-2). -/
def vec7Mask (off : Nat) : BitVec 64 :=
  if off = 0x8008 then 0x7F00007F else if off = 0x8050 then 0xC0000000 else if off = 0x8058 then 0x300000000000 else 0

/-- SHADOW_REFRESH (R78, R504): a baton carries a register's value to a head; a change of the watched bits sends vector 7.
While a slice is in reset or lost its counter page keeps the last values carried. -/
def execShadowRefresh (p : Port) (off : Nat) (s : State) : Host.Outcome State Fault Refusal :=
  .next (
    if !s.present p || decide (off < 0x8000) || decide (0xA000 ≤ off) || off % 8 ≠ 0 then s
    else if 0x9000 ≤ off && !s.working p && (s.head p).userRead then s
    else
      let new := s.regNow p off
      let old := s.carried p off
      let s := s.updHead p (fun h => { h with shadow := SMap.put h.shadow off new })
      if (old ^^^ new) &&& vec7Mask off != 0 then s.msix p 7 else s)

/-- SEC_ALARM_CLEAR (Table 02-11). -/
def execSecAlarmClear (p : Port) (s : State) : Host.Outcome State Fault Refusal := .next (if s.ioOpen p then s.clearAlarm p else s)

/-! ## Telemetry queue (R505–R509) -/

/-- TQ_DATA_READ (R507): a 32-bit read of the low half removes the entry and latches its high half. -/
def execTqDataRead (p : Port) (wide : Bool) (s : State) : Host.Outcome State Fault Refusal :=
  .next (if s.ioOpen p then let r := s.popQueue p; r.2.giveReg p 0x8100 wide r.1 else s)

/-- TQ_FLUSH (R508): a write to TQ_CTRL with FLUSH set. -/
def execTqFlush (p : Port) (v : BitVec 64) (s : State) : Host.Outcome State Fault Refusal :=
  .next (if s.ioOpen p && v.getLsbD 1 then s.updHead p (fun h => { h with tq := h.tq.writeCtrl v }) else s)

/-! ## Metering (R514, R515) -/

/-- METER_WINDOW (R514): a window opens and returns at most the window's admissions as credits: request credits first,
then request-with-data credits (log entry 16), of which a port never holds more than 256 with its writes not yet committed (R126). Windows that withheld credits are counted (0x10A, 0x10B). -/
def execMeterWindow (p : Port) (s : State) : Host.Outcome State Fault Refusal :=
  .next (
    let h := s.head p
    if !s.present p || h.link.isNone || !h.enabled then s
    else
      let s := if s.dataWithheld then s.count p 0x10B else s
      if s.pctMin = 100 then s.updHead p (fun h => { h with window := 0 })
      else
        let n := s.windowQuota p
        let wantR := 256 - h.credR
        let wantD := if s.dataWithheld then 0 else 256 - s.uncommitted p - h.credD
        let s := if n < wantR + wantD then s.count p 0x10A else s
        if s.allWithheld p then s
        else
          let r := min n wantR
          let d := min (n - r) wantD
          s.updHead p (fun h => { h with credR := h.credR + r, credD := h.credD + d, window := n - r - d }))

end Sys2Proof.Machine
end

