-- ==== Sys2Proof/Machine/Mail.lean ====
section
/-! DEFINITION. How the mailboxes and the I3C sideband take a command, check it, answer it and end it in the background
(R64–R73, R358–R360, R364–R369, R377–R381). -/

namespace Sys2Proof.Machine

/-! ## Taking a doorbell -/

/-- A foreground command runs on a head other than p (R367). -/
def State.othersBusy (s : State) (p : Port) : Bool := s.sliceIds.any (fun q => q != p && s.headBusy q)

/-- How a command is met when its doorbell rings. -/
inductive Door where
  | run | hold | busy | ignore
deriving DecidableEq, Repr

/-- A doorbell is held while the management reach restarts or has not started, while an online activation runs, and, for a
command that runs alone, while another head's foreground command runs (R359, R367, Sequence 11-1). A mailbox runs one
command at a time (R364). The sideband answers Busy while the management reach restarts (R369), and nothing before the firmware runs or
in a stopped start (R474). A port whose CXL.io stream is Insecure takes no doorbell (R62). -/
def State.door (s : State) (src : Src) (alone : Bool) : Door :=
  match src with
  | .i3c => if s.rst.stopped || s.rst.todo.contains 6 || s.power.flush == .off then .ignore else if s.rst.mgmtDown then .busy else .run
  | .head p =>
    if !s.ioOpen p || !(s.head p).enabled || s.headBusy p || !(s.head p).doorbells.isEmpty then .ignore
    else if !(s.head p).mboxReady || s.firm.act.isSome || (alone && s.othersBusy p) then .hold
    else .run

/-- A foreground command of a source completed: vector 0 when its doorbell interrupt is enabled (R366). -/
def State.rung (s : State) (src : Src) : State :=
  match src with
  | .head p => if (s.head p).dbInt then s.msix p 0 else s
  | .i3c => s

/-- The source holds a role (Table 02-4); the sideband holds none of a port's. -/
def State.hasRole (s : State) (src : Src) (r : Nat) : Bool :=
  match src with
  | .head p => (s.roles p).getLsbD r
  | .i3c => false

/-- Run a command, hold its doorbell, or answer Busy on the sideband. -/
def State.take (s : State) (src : Src) (i : Instr) (alone : Bool) (busy : Out) (run : State → State) : State :=
  match s.door src alone, src with
  | .run, _ => run s
  | .hold, .head p =>
    let s := s.updHead p (fun h => { h with doorbells := h.doorbells ++ [i] })
    { s with rst := { s.rst with rung := s.rst.rung.filter (· != p) ++ [p] } }
  | .busy, _ => s.emit busy
  | _, _ => s

/-! ## Standard commands -/

/-- Answer a standard command. -/
def State.answer (s : State) (src : Src) (c : Rc) (r : StdReply) : State := (s.emit (.reply src c r)).rung src

/-- A standard command: taken up, its role checked, run (R65, R67, R365, R369). `sideband` says whether the sideband accepts it. -/
def State.std (s : State) (src : Src) (i : Instr) (alone : Bool) (role : Option Nat) (sideband : Bool) (run : State → State) : State :=
  s.take src i alone (.reply src .busy .none) (fun s =>
    let ok := match role, src with
      | some r, _ => s.hasRole src r
      | none, .i3c => sideband
      | none, .head _ => true
    if ok then run s else s.answer src .unsupported .none)

/-! ## Vendor commands -/

/-- The 8-byte header of a vendor response (Table 02-5). -/
def vHead (ext tag orig : Nat) : List Byte := leBytes 2 ext ++ leBytes 2 tag ++ leBytes 2 orig ++ leBytes 2 0

/-- What a vendor command's execution gives. -/
inductive VRes where
  /-- success with its output from byte 8 -/
  | ok (out : List Byte) (s : State)
  /-- refused with an extended status -/
  | no (ext : Nat)
  /-- refused, having changed the state (R420) -/
  | noWith (ext : Nat) (s : State)
  /-- started in the background -/
  | bg (kind : BgKind) (s : State)
  /-- answered by a later command -/
  | later (s : State)

/-- Enter a tagged command in its head's duplicate table: 64 entries, the oldest leaving (R71). -/
def Head.enter (h : Head) (e : DupEntry) : Head := { h with dup := (if 64 ≤ h.dup.length then h.dup.drop 1 else h.dup) ++ [e] }

/-- Give a vendor response, storing it in the duplicate table when the command is tagged and entered. A response that a port reset has cut is
given to the duplicate table only (R76). -/
def State.respond (s : State) (src : Src) (tag : BitVec 16) (dg : BitVec 64) (c : Rc) (pl : List Byte) : State :=
  let s := match src with
    | .head p => if tag = 0 then s else s.updHead p (fun h => { h with
        dup := h.dup.map (fun (e : DupEntry) => if e.tag = tag && e.digest = dg && e.rsp.isNone then { e with rsp := some (c, pl), done := s.beat.events } else e) })
    | .i3c => s
  match src with
  | .head p => if (s.head p).muted then s.updHead p (fun h => { h with muted := false }) else (s.emit (.mailbox src c pl)).rung src
  | .i3c => s.emit (.mailbox src c pl)

/-- The stored response with bytes 0–1 set to 0x0102 (Table 02-6). -/
def replayed (pl : List Byte) : List Byte := leBytes 2 0x0102 ++ pl.drop 2

/-- What a vendor command is, for the checks of Table 11-4. -/
structure VSpec where
  op : BitVec 16
  /-- minimum input length, count fields included -/
  min : Nat
  /-- role by number in Table 02-4's order; none: no role -/
  role : Option Nat
  /-- accepted on the sideband (Table 12-1) -/
  sideband : Bool
  /-- itself runs in the background (check 5) -/
  bg : Bool
  /-- runs only while no foreground command runs on another head (R367) -/
  alone : Bool
  /-- check 6: an object it would change is being changed: 0 Busy, else the status that takes its place (R91) -/
  clash : State → Option Nat
  /-- what a refusal for role does besides (R420) -/
  denied : State → State

/-- A vendor command: Table 11-4 in order, the duplicate table, then execution (R70–R72, R365, R378–R381). While the power-fail
flush runs every vendor command is refused (R380). -/
def State.vendor (s : State) (src : Src) (i : Instr) (pl : List Byte) (v : VSpec) (run : State → VRes) : State :=
  s.take src i v.alone (.mailbox src .busy (vHead 0 (field pl 0 2) 0)) (fun s =>
    let tag : BitVec 16 := BitVec.ofNat 16 (field pl 0 2)
    let dg : BitVec 64 := if tag = 0 then 0 else digestOf v.op pl
    let plain := fun (s : State) (c : Rc) (ext : Nat) => (s.emit (.mailbox src c (vHead ext tag.toNat ext))).rung src
    if s.power.flush != .idle then plain s .vendorSpecific 0x0701
    else if 65536 < pl.length || pl.length < v.min then plain s .invalidPayloadLength 0
    else
      let roleOk := match v.role, src with
        | some r, _ => s.hasRole src r
        | none, .i3c => v.sideband
        | none, .head _ => true
      if !roleOk then plain (v.denied s) .vendorSpecific 0x0101
      else
        let h : Option Head := match src with | .head p => some (s.head p) | .i3c => none
        let found := h.bind (fun h => if tag = 0 then none else h.dup.find? (fun e => e.tag = tag))
        match found, src with
        | some e, .head p =>
          if e.digest != dg then plain s .vendorSpecific 0x0103
          else match e.rsp with
            | some (c, out) => ((s.count p 0x10D).emit (.mailbox src c (replayed out))).rung src
            | none => plain s .busy 0x0102
        | _, _ =>
          if v.bg && h.any (fun h => h.bg.isSome) then plain s .busy 0
          else match v.clash s with
            | some 0 => plain s .busy 0
            | some e => plain s .vendorSpecific e
            | none =>
            let s := match src with
              | .head p => if tag = 0 then s else s.updHead p (fun h => h.enter ⟨tag, dg, none, 0⟩)
              | .i3c => s
            match run s with
            | .ok out s => s.respond src tag dg .success (vHead 0 tag.toNat 0 ++ out)
            | .no ext => s.respond src tag dg .vendorSpecific (vHead ext tag.toNat ext)
            | .noWith ext s => s.respond src tag dg .vendorSpecific (vHead ext tag.toNat ext)
            | .bg kind s =>
              let s := match src with
                | .head p => s.updHead p (fun h => { h with bg := some ⟨kind, v.op, tag, dg, false, 0⟩ })
                | .i3c => s
              (s.emit (.mailbox src .backgroundStarted (vHead 0 tag.toNat 0))).rung src
            | .later s => s)

/-- A plain vendor command: its opcode, minimum length and role. -/
def VSpec.plain (op : BitVec 16) (min : Nat) (role : Option Nat) : VSpec := ⟨op, min, role, false, false, false, fun _ => none, id⟩

/-- End a vendor background command with its full response (R379). -/
def State.endVendor (s : State) (p : Port) (c : Rc) (ext : Nat) (out : List Byte) : State :=
  match (s.head p).bg with
  | none => s
  | some b => s.endBg p c ext (some (vHead ext b.tag.toNat ext ++ out))

/-- A slice is stopped: an access to it would not complete (R373). -/
def State.stopped (s : State) (k : SliceId) : Bool := !(s.slice k).clkAlive

/-- Slices a package-wide command reaches: present and not lost (R367). -/
def State.liveSlices (s : State) : List SliceId := s.sliceIds.filter (fun k => (s.slice k).st != .lost)

end Sys2Proof.Machine
end

