-- ==== Sys2Proof/Machine/Channel.lean ====
section
/-! DEFINITION. The media channel's own upkeep: temperatures, tracking, ALERT_L and its causes, lost bursts, retrains
(R181–R189, R247). -/

namespace Sys2Proof.Machine

/-! ## Temperature (R183–R185) -/

/-- Temperature window of a band: its edges offset outward by 1 °C (R184; the outer bands keep the register's limit). -/
def bandWindow (b : Nat) : Int × Int :=
  match b with
  | 0 => (-128, 41)
  | 1 => (39, 66)
  | 2 => (64, 86)
  | 3 => (84, 101)
  | _ => (99, 127)

/-- An MX request of one die. -/
def State.pushMx (s : State) (k : SliceId) (j : ChanId) (d : DieId) (sq : SeqK) (page sector : Nat) (w : Work) : State :=
  s.pushReq k j (ChReq.plain .mx sq d 0 page sector 0 0 w 0 true)

/-- The value that a mode register comes to hold: that of the last MRW that waits for its grant, else the one it holds. -/
def Chan.regDue (c : Chan) (d : DieId) (reg : Fin 8) : Nat :=
  let due := (c.arb.chosen.toList ++ c.arb.queue).filter (fun r => r.sq == .mrw && r.die == d && r.page == reg.val)
  (due.getLast?.map (·.sector)).getD ((c.dies[d]).mreg[reg]).toNat

/-- Have a mode register hold a value: MRW under MX, unless it comes to hold it (R184). -/
def State.setReg (s : State) (k : SliceId) (j : ChanId) (d : DieId) (reg : Fin 8) (v : Nat) : State :=
  if (s.chan k j).regDue d reg = v then s else s.pushMx k j d .mrw reg.val v (.temp d.val)

/-- Cadence of a scrub pass by band (Table 09-2), in beats. -/
def scrubCadence (band : Nat) : Nat :=
  if band ≤ 1 then 604800000000 else if band = 2 then 259200000000 else if band = 3 then 86400000000 else 21600000000

/-- TEMP_MAX rises to a band in a die's block-state records (R220). -/
def State.raiseTempMax (s : State) (k : SliceId) (j : ChanId) (d : DieId) (band : Nat) : State :=
  s.updMedia k (fun m => (m.blocks.filter (fun b => b.1 / 16384 = j.val * 8 + d.val && decide (b.2.tempMax < band))).foldl (fun m b =>
    m.setBlock s.beat.events j.val d.val (b.1 % 16384) { b.2 with tempMax := band }) m)

/-- A die is in a temperature band (R172, R184, R220, R273, R305): its window is set to the band's edges and TEMP_MAX raised in its blocks; when the band is another than before, its threshold sets are loaded again and its scrub deadline follows. -/
def State.setBand (s : State) (k : SliceId) (j : ChanId) (d : DieId) (band : Nat) : State :=
  let old := ((s.chan k j).dies[d]).band
  let w := bandWindow band
  let s := (s.setReg k j d 3 (deg8 w.2)).setReg k j d 4 (deg8 w.1)
  let s := if band = old then s else
    (s.updChan k j (·.updDie d (fun x => { x with
      band := band
      scrubDue := if old < band && x.scrubDue != 0 then min x.scrubDue (scrubCadence band) else x.scrubDue }))).loadLens k j d
  s.raiseTempMax k j d band

/-- A READ_TEMP response: its reading, when its bit says that it is valid (Table 05-9). -/
def tempOf (r : List Byte) : Option Int := if (field r 2 1).testBit 0 then some (r.getD 0 0).toInt else none

/-- A valid reading of a die (R184). -/
def State.reading (s : State) (k : SliceId) (j : ChanId) (d : DieId) (v : Int) : State :=
  (s.updChan k j (·.updDie d (fun x => { x with temp := v, high := max x.high v, valid := true, tempFails := 0, tempTries := 0 }))).setBand k j d (tempBand v)

/-- A READ_TEMP interval without a reading (R185): the second in a row puts the die in T4. TEMP_MAX of its blocks rises to T4 with its band (DESIGN CHOICE:
R220 and R273 say it of readings; log entry 83). -/
def State.noReading (s : State) (k : SliceId) (j : ChanId) (d : DieId) : State :=
  let n := ((s.chan k j).dies[d]).tempFails + 1
  let s := s.updChan k j (·.updDie d (fun x => { x with tempFails := n, tempTries := 0 }))
  if 2 ≤ n then s.setBand k j d 4 else s

/-- First die of a chip-select group that can answer (DESIGN CHOICE: R183 names the group, no die; log entry 83). -/
def Chan.groupDie (c : Chan) (dies g : Nat) : Option DieId :=
  (List.finRange 8).find? (fun d => (if 2 * d.val < dies then 0 else 1) == g && (c.dies[d]).present && !(c.dies[d]).failed)

/-- Raise the PAT_READ of each group (R183), unless a tracking of the channel is under way. -/
def State.raiseTracking (s : State) (k : SliceId) (j : ChanId) : State :=
  if (s.chan k j).tracking then s
  else
    let s := s.updChan k j (fun c => { c with trackAt := s.beat.events, tracking := true })
    [0, 1].foldl (fun s g => match (s.chan k j).groupDie (s.chanDies k j) g with
      | some d => s.pushMx k j d .tracking 0 0 .track
      | none => s) s

/-- TEMP_READOUT (R178, R184, R185, R273): a READ_TEMP response and its CRC-8. One that fails its CRC-8 is asked for again, and the third ends the interval; a 10 °C
move since training raises tracking (R183). -/
def execTempReadout (k : SliceId) (j : ChanId) (d : DieId) (reply : List Byte) (crc : Byte) (s : State) : Host.Outcome State Fault Refusal :=
  .next (
    let die := (s.chan k j).dies[d]
    let reply := reply ++ [crc]
    if !s.present k || !die.present || die.failed then s
    else if !goodReply 8 reply then
      if die.tempTries + 1 < 3 then
        ((s.updChan k j (·.updDie d (fun x => { x with tempTries := x.tempTries + 1 }))).pushMx k j d .readTemp 0 0 (.temp d.val)).count k 0x314
      else s.noReading k j d
    else
      let s := s.updChan k j (·.updDie d (fun x => { x with lostInRow := 0 }))
      match tempOf reply with
      | none => s.noReading k j d
      | some v =>
        let s := s.reading k j d v
        if 10 ≤ (v - die.trainTemp).natAbs && !(s.chan k j).retraining then s.raiseTracking k j else s)

/-- A delay moves toward where its centre now lies, by at most 1/64 UI (R183). -/
def recentre (x centre : Int) : Int := x + max (-1) (min 1 (centre - x))

/-- CHANNEL_TRACKING (R183): 65,536 beats after the last one, or after a 10 °C move, the device raises a PAT_READ of each group under MX; once those have been
read, the command gives where the centres of DQS gating and receive delay lie, and each is recentred by at most 1/64 UI. -/
def execChannelTracking (k : SliceId) (x : Tracked) (s : State) : Host.Outcome State Fault Refusal :=
  .next (
    let c := s.chan k x.chan
    let moved := c.dies.toList.any (fun d => d.present && !d.failed && d.valid && decide (10 ≤ (d.temp - d.trainTemp).natAbs))
    if !s.present k || !c.up || c.retraining then s
    else if !c.tracking then if moved || decide (c.trackAt + 65536 ≤ s.beat.events) then (s.raiseTracking k x.chan).grantCredits else s
    else if !c.workDone .track then s
    else s.updChan k x.chan (fun c => { c with
      tracking := false
      gate := #v[recentre c.gate[0] x.gate0, recentre c.gate[1] x.gate1]
      rx := #v[recentre c.rx[0] x.rx0, recentre c.rx[1] x.rx1] }))

/-! ## Training (R181, R182) -/

/-- Width and centre of a passing window. -/
def width (w : Nat × Nat) : Nat := w.2 - w.1
def centre (w : Nat × Nat) : Nat := (w.1 + w.2) / 2

/-- The windows of so many bits pass: each is at least 0.35 UI wide (R182). -/
def windowsPass (ws : List (Nat × Nat)) (n : Nat) : Bool := ws.length == n && ws.all (fun w => decide (35 * 64 ≤ 100 * width w))

/-- Step 6 passes: every CA bit has its window, and each CS line some. -/
def caPass (t : TrainTry) : Bool := t.ca.length == 8 && windowsPass (t.ca.take 6) 6 && t.ca.all (fun w => decide (w.1 ≤ w.2))

/-- Step 7 passes in so many groups. -/
def rxPass (t : TrainTry) (groups : Nat) : Bool :=
  windowsPass t.rx (8 * groups) && t.gate.length == groups && t.rxRef.length == groups && (t.gate ++ t.rxRef).all (fun w => decide (w.1 ≤ w.2))

/-- Step 9 passes in so many groups, for so many dies. -/
def txPass (t : TrainTry) (groups : Nat) (dies : List DieId) : Bool :=
  windowsPass t.tx (8 * groups) && dies.all (fun d => t.vref.any (fun v => v.1 == d.val && decide (v.2.1 ≤ v.2.2)))

/-- Step 10 met no error: every pair brought back the pattern, some after a repeat for its CRC-8 (R178). -/
def patPass (t : TrainTry) : Bool :=
  t.pats.all (fun p => (firstGood 64 p.2).any (fun r => r.take 63 == (prbsPattern Config.prbsSeed).take 63))

/-- An attempt passes training (R182); a retrain has no step 6. -/
def tryPasses (t : TrainTry) (groups : Nat) (dies : List DieId) (full : Bool) : Bool :=
  (!full || caPass t) && rxPass t groups && t.dqs.length == groups && txPass t groups dies && patPass t

/-- Narrowest of some windows, from the narrowest of the CA bits. -/
def narrowest (ca : Nat) (ws : List (Nat × Nat)) : Nat := ws.foldl (fun n w => min n (width w)) ca

/-- Send a command slot of training under a chip-select: outside any grant. -/
def State.trainSlotOn (s : State) (k : SliceId) (j : ChanId) (cs : BitVec 2) (w : BitVec 48) : State :=
  (s.updChan k j (·.keepSlot w none)).emit (.slot k j cs w)

/-- Send a command slot of training to a die, under the chip-select of the channel's own population. -/
def State.trainSlot (s : State) (k : SliceId) (j : ChanId) (d : DieId) (w : BitVec 48) : State :=
  s.trainSlotOn k j (chipSelect (s.chanDies k j) d.val) w

/-- Send a command and its repeats for the replies that fail their CRC-8, three in all (R178; log entry 71). -/
def State.trainAsk (s : State) (k : SliceId) (j : ChanId) (cs : BitVec 2) (w : BitVec 48) (n : Nat) (rs : List (List Byte)) : State :=
  (List.range (min 3 ((rs.takeWhile (fun r => !goodReply n r)).length + 1))).foldl (fun s i =>
    let s := s.trainSlotOn k j cs w
    if i = 0 then s else s.count k 0x314) s

/-- Write a mode register of one die, or of every die by a broadcast (R173, Table 05-13). -/
def State.mrw (s : State) (k : SliceId) (j : ChanId) (d : Option DieId) (reg : Fin 8) (v : Nat) : State :=
  let w := fun (x : Die) => { x with mreg := x.mreg.set reg (BitVec.ofNat 8 v) }
  match d with
  | some d => (s.trainSlot k j d (slotReg 0x12 d.val reg.val v)).updChan k j (·.updDie d w)
  | none => (s.broadcast k j (slotReg 0x12 0 reg.val v)).updChan k j (fun c => { c with dies := mapV c.dies w })

/-- DIE_RESET reaches every die: mode registers at their reset values, and array operations in progress aborted as ABORT does (Tables 05-8, 05-12): the
block of a program or a reset is left aborted. -/
def State.dieReset (s : State) (k : SliceId) (j : ChanId) : State :=
  let hit := (List.finRange 8).flatMap (fun d => (((s.chan k j).dies[d]).banks).filterMap (fun b => match b.2.op with
    | .reset n _ | .program n _ => some (d, n)
    | .write _ => none))
  let s := hit.foldl (fun s h => s.updMedia k (fun m => m.setBlock s.beat.events j.val h.1.val h.2 { m.block j.val h.1.val h.2 with aborted := true })) s
  (s.updChan k j (fun c => { c with dies := mapV c.dies (fun x => { x with mreg := Die.reset.mreg, banks := [] }) })).broadcast k j (slotPlain 0x17 0)

/-- Dies that a channel's training reaches: present and not failed (R187). -/
def Chan.live (c : Chan) : List DieId := (List.finRange 8).filter (fun d => (c.dies[d]).present && !(c.dies[d]).failed)

/-- The chip-selects under which READ_ID of a die goes out: its own, where the population is recorded; before the first inventory, where the die's group
depends on the population, CS[0] and, when no die answers there, CS[1] (Table 05-6; DESIGN CHOICE: log entry 81). -/
def idSelects (dies found d : Nat) (here : Bool) : List (BitVec 2) :=
  if dies ≠ 0 then [chipSelect dies d]
  else if d = 0 then [1#2]
  else if 4 ≤ d then [2#2]
  else if here && chipSelect found d == 1#2 then [1#2]
  else [1#2, 2#2]

/-- Step 2: READ_ID of dies 0 to 7 in turn; a failed die is asked nothing (R187). A reply that fails its CRC-8 is asked for again (R178). -/
def State.readIds (s : State) (k : SliceId) (j : ChanId) (ids : List (Nat × List (List Byte))) : State :=
  let of := fun (d : DieId) => ((ids.find? (fun x => x.1 = d.val)).map (·.2)).getD []
  let got := fun (d : DieId) => (firstGood 32 (of d)).map Ident.ofBytes
  let asked := (List.finRange 8).filter (fun d => !((s.chan k j).dies[d]).failed)
  let found := (asked.filter (fun d => (got d).isSome)).length
  asked.foldl (fun s d =>
    let sel := idSelects s.dies found d.val (got d).isSome
    let s := sel.foldl (fun s cs => s.trainAsk k j cs (slotPlain 0x11 d.val) 32 (if some cs == sel.getLast? then of d else [])) s
    s.updChan k j (·.updDie d (fun x => { x with present := (got d).isSome, ident := got d }))) s

/-- First die of each chip-select group that can answer. -/
def State.groupDies (s : State) (k : SliceId) (j : ChanId) : List DieId := [0, 1].filterMap (fun g => (s.chan k j).groupDie (s.chanDies k j) g)

/-- Steps 1 to 6 of a training: DIE_RESET, READ_ID, ZQCAL, DRIVE, ODT, SOFT_STEP and FSP, and CA training of one die of each group, with the CA and CS launch
delays at the centres of their windows (log entry 81). -/
def State.trainFirst (s : State) (k : SliceId) (j : ChanId) (ids : List (Nat × List (List Byte))) (t : TrainTry) : State :=
  let s := (s.dieReset k j).readIds k j ids
  let s := (s.chan k j).live.foldl (fun s d => s.trainSlot k j d (slotPlain 0x14 d.val)) s
  let s := (((s.mrw k j none 0 1).mrw k j none 1 3).mrw k j none 6 8).mrw k j none 5 1
  let s := (s.groupDies k j).foldl (fun s d => (s.mrw k j (some d) 5 3).mrw k j (some d) 5 1) s
  s.updChan k j (fun c => { c with delays := { c.delays with ca := t.ca.map centre, caWindow := narrowest 64 (t.ca.take 6) } })

/-- A PAT_WRITE and PAT_READ pair of a die. -/
def State.trainPair (s : State) (k : SliceId) (j : ChanId) (d : DieId) : State :=
  ((s.trainSlot k j d (slotPlain 0x15 d.val)).emit (.burst k j (burstBytes (prbsPattern Config.prbsSeed)))).trainSlot k j d (slotPlain 0x16 d.val)

/-- Steps 7 to 10, each only when the one before passed (R182): DQS gating, receive delay and reference from PAT_READ of each group; write levelling of one die
of each; launch delay and VREF_DQ from a PRBS-15 pattern; and 1,024 pairs with each die. A sweep's repeats are emitted once (log entry 81). -/
def State.trainRest (s : State) (k : SliceId) (j : ChanId) (t : TrainTry) : State :=
  let there := (s.chan k j).live
  let groups := s.groupDies k j
  let s := groups.foldl (fun s d => s.trainSlot k j d (slotPlain 0x16 d.val)) s
  if !rxPass t groups.length then s
  else
    let s := s.updChan k j (fun c => { c with delays := { c.delays with gate := t.gate.map centre, rx := t.rx.map centre, rxRef := t.rxRef.map centre } })
    let s := groups.foldl (fun s d => (s.mrw k j (some d) 5 5).mrw k j (some d) 5 1) s
    if t.dqs.length ≠ groups.length then s
    else
      let s := s.updChan k j (fun c => { c with delays := { c.delays with dqs := t.dqs } })
      let s := there.foldl (fun s d => s.trainPair k j d) s
      if !txPass t groups.length there then s
      else
        let s := s.updChan k j (fun c => { c with delays := { c.delays with tx := t.tx.map centre } })
        let s := there.foldl (fun s d => s.mrw k j (some d) 2 (((t.vref.find? (fun v => v.1 = d.val)).map (fun v => centre v.2)).getD 20)) s
        there.foldl (fun s d => (s.trainPair k j d).emit (.again k j 1023)) s

/-- The training of a channel from step 1, with the attempts that it made: up to three, until one passes (R182); none where no die answers. -/
def State.trainTries (s : State) (k : SliceId) (j : ChanId) (ids : List (Nat × List (List Byte))) : List TrainTry → Option TrainTry × State
  | [] => (none, s)
  | t :: ts =>
    let s := s.trainFirst k j ids t
    let s := if caPass t then s.trainRest k j t else s
    let there := (s.chan k j).live
    if tryPasses t (s.groupDies k j).length there true && !there.isEmpty then (some t, s) else s.trainTries k j ids ts

/-! ## Retraining (R188) -/

/-- A channel starts to retrain: it issues no command until the retrain ends. -/
def State.startRetrain (s : State) (k : SliceId) (j : ChanId) : State :=
  let c := s.chan k j
  if c.up && !c.retraining then
    (s.updChan k j (fun c => { c with retraining := true, retrainTries := 0, errBeats := [], lostBeats := [] })).count k 0x313
  else s

/-- Beats of a list within the last 1,024. -/
def recentBeats (l : List Nat) (now : Nat) : List Nat := l.filter (fun b => decide (now < b + 1024))

/-- A WCRC or CA_PAR event: three within 1,024 beats retrain the channel. -/
def State.errBeat (s : State) (k : SliceId) (j : ChanId) : State :=
  let s := s.updChan k j (fun c => { c with errBeats := s.beat.events :: recentBeats c.errBeats s.beat.events })
  if 3 ≤ (s.chan k j).errBeats.length then s.startRetrain k j else s

/-! ## Repeats (R189) -/

/-- Time from the raising of a repeated read's request to its completion at the port, at most, in ps: from ready to the codeword's correction (R211, R287,
Table 08-8), then decryption and the tag check, the return from another slice and the port. -/
def ChReq.again (r : ChReq) (oneBit far : Bool) : Nat :=
  (if r.sq == .readSoft then (if oneBit then 407500 else 457500)
    else if r.ts = 31 then (if oneBit then 332500 else 367500)
    else if oneBit then 251250 else 276250) + 15000 + (if far then 5500 else 0)

/-- The command of a lost burst is issued again. -/
def State.askAgain (s : State) (k : SliceId) (j : ChanId) (r : ChReq) : State :=
  (s.updChan k j (fun c => { c with arb := { c.arb with queue := r :: c.arb.queue } })).count k 0x314

/-- The host's read that a foreground read serves: its own, or the one that waits for a tree node. -/
def State.readFor (s : State) (k : SliceId) (rd : MediaRead) : Option (MediaRead × Req) :=
  match rd.why with
  | .host q => some (rd, q)
  | .node _ _ (some rid) .fr _ => (s.readOf k rid).bind (fun r => match r.why with | .host q => some (r, q) | _ => none)
  | _ => none

/-- The command of a lost burst or of a refused slot is issued again, a foreground read's only when the repeat can still complete within the bound, `left` ps
away: else the host's read ends at its bound and goes to background repair (R189). -/
def State.repeatLost (s : State) (k : SliceId) (j : ChanId) (r : ChReq) (left : Nat) : State :=
  match r.work with
  | .read rid =>
    match s.readOf k rid with
    | some rd =>
      match s.readFor k rd with
      | some (top, q) => if r.again (s.oneBitReq k j r) (q.port != k) ≤ left then s.askAgain k j r else s.boundPoison k top q (some 2)
      | none => s.askAgain k j r
    | none => s
  | _ => s.askAgain k j r

/-! ## ALERT_L (R186, Tables 05-10 and 05-14) -/

/-- The refused slot is in the die's geometry and its opcode is not reserved: its DIE is of the channel, and PAGE[9] is clear for a 1-bit block (R175). -/
def State.slotLegal (s : State) (k : SliceId) (j : ChanId) (w : BitVec 48) : Bool :=
  let op := w.toNat % 32
  let oneBit := ((s.slice k).media.block j.val (w.toNat / 32 % 8) (w.toNat / 2 ^ 8 % 2 ^ 14)).mode = 2
  !slotReserved w && decide (w.toNat / 32 % 8 < s.dies) && !(decide (1 ≤ op ∧ op ≤ 7) && oneBit && w.getLsbD 31)

/-- WCRC: the command and its burst are sent again, up to three times; then the channel retrains, and they are sent after it. No array operation began. -/
def State.resend (s : State) (k : SliceId) (j : ChanId) (d : DieId) : State :=
  let c := s.chan k j
  match SMap.get? c.sent d.val with
  | none => s
  | some r =>
    let n := SMap.getD c.resent d.val 0
    let s := if r.sq.starts then s.setBank k j d (r.block % 16) none else s
    let s := (s.updChan k j (fun c => { c with
      resent := SMap.put c.resent d.val (if 3 ≤ n then 0 else n + 1)
      arb := { c.arb with queue := r :: c.arb.queue } })).count k 0x314
    if 3 ≤ n then s.startRetrain k j else s

/-- The block of a garbage collection's copy on the die failed a write: its ring goes on without it, and the copy starts again in another block (R246). -/
def Media.gcBlockFailed (m : Media) (cd b : Nat) (g : Gc) : Media :=
  let jn := m.journal cd
  let jn : Journal := { jn with
    headPage := if jn.ring.getLast? = some b then 512 else jn.headPage
    failed := if jn.failed.contains b then jn.failed else jn.failed ++ [b] }
  { m with gcs := SMap.put m.gcs cd (g.drop b), journals := SMap.put m.journals cd jn }

/-- A 1-bit write of the die failed verify in block b: the drain, or the copy, that wrote there starts again elsewhere (R230, R246). -/
def State.writeFailAt (s : State) (k : SliceId) (j : ChanId) (d : DieId) (b : Nat) : State :=
  let s := s.setBank k j d (b % 16) none
  let s : State := match (s.slice k).media.drainOn j.val d.val with
    | some dr => if dr.jblock = b then s.redrain k j d true else s
    | none => s
  let cd := j.val * 8 + d.val
  let s := match SMap.get? (s.slice k).media.gcs cd with
    | some g => if g.drop b = g then s else (s.dropWork k j (.gc d.val)).updMedia k (fun m => m.gcBlockFailed cd b g)
    | none => s
  s.areaFailed k j d b

/-- A program, reset or 1-bit write failed verify at FAIL_ADDR: the fold engine or the journal writer relocates (R230, R239,
R246). -/
def State.failAt (s : State) (k : SliceId) (j : ChanId) (d : DieId) (addr : BitVec 28) (pfail rfail wfail : Bool) : State :=
  let b := addr.toNat / 2 ^ 14
  let s := if pfail then
      match ((s.slice k).media.foldSet j.val).find? (fun f => f.die == d && f.blk == b) with
      | some f => ((s.dropWork k j (.fold f.key)).setBank k j d (b % 16) none).dropFold k j.val d.val f.key b false
      | none => s
    else s
  let s := if rfail then (s.setBank k j d (b % 16) none).retireBlock k j.val d.val b 3 else s
  if wfail then s.writeFailAt k j d b else s

/-- CA_PAR and CMD_ERR: the slot that matches LAST_REJECT among the channel's last 64 is issued again: the whole sequence that it was of, with its burst,
or the slot alone where the controller issued it outside any grant. -/
def State.reissue (s : State) (k : SliceId) (j : ChanId) (d : DieId) (last : BitVec 32) (left : Nat) : State :=
  match (s.chan k j).slots.find? (fun w => w.1.setWidth 32 == last) with
  | some (w, r) =>
    if !s.slotLegal k j w then s
    else match r with
      | some r => (if r.sq.starts then s.setBank k j r.die (r.block % 16) none else s).repeatLost k j r left
      | none => if (s.chan k j).talks d then (s.sendSlot k j d w none).count k 0x314 else s
  | none => s

/-- A refused slot that no other die of its group has reported since ALERT_L was asserted: the event is counted, a parity failure toward a retrain, and its
command is issued again (Table 05-14, R188). -/
def State.cmdRefused (s : State) (k : SliceId) (j : ChanId) (d : DieId) (x : DieStatus) (left : Nat) : State :=
  if (s.chan k j).rejects.contains x.lastReject then s
  else
    let s := (s.updChan k j (fun c => { c with rejects := x.lastReject :: c.rejects })).count k 0x310
    let s := if x.causes.getLsbD 0 then s.errBeat k j else s
    s.reissue k j d x.lastReject left

/-- Act on the causes of a die's STATUS (R186, Table 05-14). CMD_ERR counts with CA_PAR, whose row of Table 05-14 it shares (DEDUCED; log entry 82). -/
def State.actStatus (s : State) (k : SliceId) (j : ChanId) (d : DieId) (x : DieStatus) (left : Nat) : State :=
  let c := x.causes
  let s := if c.getLsbD 0 || c.getLsbD 7 then s.cmdRefused k j d x left else s
  let s := if c.getLsbD 1 then ((s.count k 0x311).errBeat k j).resend k j d else s
  let s := s.failAt k j d x.failAddr (c.getLsbD 2 || c.getLsbD 5) (c.getLsbD 3) (c.getLsbD 4)
  if c.getLsbD 6 then s.pushMx k j d .readTemp 0 0 (.temp d.val) else s

/-- A die's STATUS response to an alert (R178, R186, R187): once its grant has ended, a good one is acted on and its causes cleared; one that fails its CRC-8 is
asked for again, and the third fails the die. -/
def State.dieStatus (s : State) (k : SliceId) (j : ChanId) (x : StatusReply) : State :=
  let die := (s.chan k j).dies[x.die]
  if !die.stWait || die.failed || !(s.chan k j).workDone (.alert x.die.val) then s
  else if goodReply 16 x.reply then
    let r := DieStatus.ofBytes x.reply
    let s := s.updChan k j (·.updDie x.die (fun y => { y with stWait := false, stTries := 0, lostInRow := 0 }))
    let s := s.actStatus k j x.die r x.left
    -- without a cause nothing follows: MX's operation has ended (R297)
    if r.causes = 0 then s.updChan k j (fun c => { c with pace := { c.pace with opOpen := c.pace.opOpen.filter (· != .mx) } }) else s.pushMx k j x.die .clearAlert 0 r.causes.toNat (.alert x.die.val)
  else if die.stTries + 1 < 3 then
    ((s.updChan k j (·.updDie x.die (fun y => { y with stTries := y.stTries + 1 }))).pushMx k j x.die .status 0 0 (.alert x.die.val)).count k 0x314
  else (s.updChan k j (·.updDie x.die (fun y => { y with stWait := false, stTries := 0 }))).dieFailed k j x.die

/-- An alert is being handled: a STATUS or a CLEAR_ALERT is still to come. -/
def Chan.alerting (c : Chan) : Bool :=
  c.dies.toList.any (fun d => d.stWait && !d.failed) || !((List.finRange 8).all (fun (d : DieId) => c.workDone (.alert d.val)))

/-- ALERT_ASSERTED (R186): low for 5 ns, the line makes the device raise STATUS of every present die under MX; the replies that come while it stays low are
acted on. -/
def execAlertAsserted (k : SliceId) (j : ChanId) (ns : Nat) (sts : List StatusReply) (s : State) : Host.Outcome State Fault Refusal :=
  .next (
    if !s.present k || !(s.chan k j).up || ns < 5 then s
    else if (s.chan k j).alerting then (sts.foldl (fun s x => s.dieStatus k j x) s).grantCredits
    else
      let s := s.updChan k j (fun c => { c with alert := true, rejects := [] })
      ((s.chan k j).live.foldl (fun s d =>
        (s.updChan k j (·.updDie d (fun x => { x with stWait := true, stTries := 0 }))).pushMx k j d .status 0 0 (.alert d.val)) s).grantCredits)

/-- ALERT_STUCK_TIMEOUT (R188): still low 10 µs after every present die reported no cause. -/
def execAlertStuckTimeout (k : SliceId) (j : ChanId) (us : Nat) (s : State) : Host.Outcome State Fault Refusal :=
  .next (
    if 10 ≤ us && (s.chan k j).alert && !(s.chan k j).alerting then s.startRetrain k j else s)

/-! ## The end of a training (R181 steps 11 to 13) -/

/-- Step 11: a die's temperature, asked for again where a reply fails its CRC-8, and its threshold sets. -/
def State.trainTemp (s : State) (k : SliceId) (j : ChanId) (d : DieId) (rs : List (List Byte)) : State :=
  let s := s.trainAsk k j (chipSelect (s.chanDies k j) d.val) (slotPlain 0x10 d.val) 8 rs
  let s := match (firstGood 8 rs).bind tempOf with
    | some v => s.reading k j d v
    | none => s.noReading k j d
  let s := (s.loadLens k j d).loadPlain k j d
  s.updChan k j (·.updDie d (fun x => { x with trainTemp := x.temp }))

/-- Step 12: a die's STATUS, asked for again where a reply fails its CRC-8; three that fail fail the die (R187). An alert that waited for it is acted on. -/
def State.trainStatus (s : State) (k : SliceId) (j : ChanId) (d : DieId) (rs : List (List Byte)) : State :=
  let s := s.trainAsk k j (chipSelect (s.chanDies k j) d.val) (slotPlain 0x0E d.val) 16 rs
  let waits := ((s.chan k j).dies[d]).stWait
  let s := (s.dropWork k j (.alert d.val)).updChan k j (·.updDie d (fun x => { x with stWait := false, stTries := 0 }))
  match firstGood 16 rs with
  | some r => if waits then s.actStatus k j d (DieStatus.ofBytes r) 0 else s
  | none => if 3 ≤ rs.length then s.dieFailed k j d else s

/-- Steps 11 to 13: every die's temperature and threshold sets, STATUS of each and every cause cleared; the channel is up, and the ABORTs kept since it had no
clock go out (R205). -/
def State.trainEnd (s : State) (k : SliceId) (j : ChanId) (t : TrainTry) (temps stats : List (Nat × List (List Byte))) : State :=
  let of := fun (l : List (Nat × List (List Byte))) (d : DieId) => ((l.find? (fun x => x.1 = d.val)).map (·.2)).getD []
  let s := s.updChan k j (fun c => { c with
    up := true
    retraining := false
    retrainTries := 0
    window := narrowest c.delays.caWindow (t.rx ++ t.tx)
    trackAt := s.beat.events
    tracking := false
    gate := #v[0, 0]
    rx := #v[0, 0] })
  let s := s.dropWork k j .track
  let there := (s.chan k j).live
  let s := there.foldl (fun s d => s.trainTemp k j d (of temps d)) s
  let s := there.foldl (fun s d => s.trainStatus k j d (of stats d)) s
  ((s.broadcast k j (slotReg 0x0F 0 0xFF 0)).updChan k j (fun c => { c with alert := false, rejects := [] })).sendAborts k j

/-- The training of a channel at boot step 08 (R181, R182): whether it passed. -/
def State.trainChannel (s : State) (k : SliceId) (j : ChanId) (t : ChanTrain) : Bool × State :=
  match s.trainTries k j t.ids (t.tries.take 3) with
  | (some a, s) => (true, s.trainEnd k j a t.temps t.stats)
  | (none, s) => (false, s)

/-- CHANNEL_RETRAIN (R181, R182, R188): an attempt of a retrain ends; where none was under way, firmware asked for one. Every attempt of a retrain starts at step
7, its second and third too (DESIGN CHOICE: R182 has a failed step restart from step 1, R181 a retrain start at step 7; log entry 81). The third failure marks
the channel absent. -/
def execChannelRetrain (k : SliceId) (j : ChanId) (t : TrainTry) (r : TrainReplies) (s : State) : Host.Outcome State Fault Refusal :=
  .next (
    if !s.present k || !(s.chan k j).up || !s.channelRail k then s
    else
      let s := (s.startRetrain k j).trainRest k j t
      if tryPasses t (s.groupDies k j).length (s.chan k j).live false then (s.trainEnd k j t r.temps r.stats).grantCredits
      else
        let s := s.updChan k j (fun c => { c with retrainTries := c.retrainTries + 1 })
        if 3 ≤ (s.chan k j).retrainTries then s.markAbsent k j else s)

/-! ## Lost bursts (R187) -/

/-- A burst that did not come: its die's and its channel's counts (R187). -/
def Chan.burstLost (c : Chan) (d : DieId) (now : Nat) : Chan :=
  { c.updDie d (fun x => { x with lostInRow := x.lostInRow + 1 }) with lostBeats := now :: recentBeats c.lostBeats now }

/-- The tenure whose response from the die has not begun. -/
def Chan.awaits (c : Chan) (d : DieId) : Option Tenure :=
  c.tenures.find? (fun t => t.req.die == d && (t.req.latency false).isSome && !t.begun)

/-- The tenure's response is lost: its hold counts from the Max of the latency to the 5 ns after it at which the burst is lost (R187, R202). -/
def Tenure.lose (t : Tenure) : Tenure := { t with hold := t.lastSlot + 20, retry := false, begun := true, lost := true }

/-- Two losses within 1,024 beats retrain the channel (R187, R188). -/
def State.lossRetrain (s : State) (k : SliceId) (j : ChanId) : State :=
  if (s.chan k j).lostBeats.length < 2 then s else s.startRetrain k j

/-- BURST_LOST (R187–R189, R202): the response expected from a die did not come. Its command is issued again once, a foreground read's only when the repeat
can still end within the bound, `left` ps away; a second loss in a row fails the die, and two losses within 1,024 beats retrain the channel. -/
def execBurstLost (k : SliceId) (j : ChanId) (x : LostReply) (s : State) : Host.Outcome State Fault Refusal :=
  .next (
    let c := s.chan k j
    let die := c.dies[x.die]
    if !s.present k || !c.up || !die.present || die.failed then s
    else
      let s := (s.count k 0x312).updChan k j (·.burstLost x.die s.beat.events)
      let s := match c.awaits x.die with
        | some u =>
          let s := s.updChan k j (·.mapTenures (fun t => if t = u then t.lose else t))
          if die.lostInRow = 0 then s.repeatLost k j u.req x.left else s
        | none => s
      let s := if die.lostInRow = 0 then s else s.dieFailed k j x.die
      (s.lossRetrain k j).grantCredits)

end Sys2Proof.Machine
end

