-- ==== Sys2Proof/Machine/Passes.lean ====
section
/-! DEFINITION. Fixing the epoch, the re-ageing passes, the age sweep, calibration and scrub (R245, R268–R284, R305–R308). -/

namespace Sys2Proof.Machine

/-! ## Re-ageing passes (R277–R279) -/

/-- Keys of the blocks that hold data, in block-state order. -/
def Media.heldKeys (m : Media) : List Nat := (m.blocks.filter (fun b => b.2.holds)).map (·.1)

/-- Raise the CB operation of one measured read: the READ naming TS31 and its READ_TS (R171, R297). -/
def State.pushCalib (s : State) (k : SliceId) (j : ChanId) (d : DieId) (blk page : Nat) : State :=
  let s := s.pushReq k j (ChReq.plain .cb .read d blk page 0 0 31 (.calib d.val) 0 false)
  s.pushReq k j (ChReq.plain .cb .readTs d blk page 0 0 31 (.calib d.val) 0 false)

/-- A READ_TS reply of a calibration operation (R171, R178): one that fails its CRC-8 is asked for again, up to the third. Answers whether the operation
goes on, and the offsets measured when the reply says that they are those of the block. -/
def State.tsReply (s : State) (k : SliceId) (j : ChanId) (d : DieId) (blk : Nat) (reply : List Byte) : Bool × Option (BitVec 24) × State :=
  let die := (s.chan k j).dies[d]
  if goodReply 8 reply then
    let s := s.updChan k j (·.updDie d (fun x => { x with lostInRow := 0, tsTries := 0 }))
    match tsMeasured reply with
    | some (b, page) =>
      if b = blk then
        (false, some (tsOffsets reply), s.updChan k j (·.updDie d (fun x => { x with
          sets := SMap.put x.sets 31 (tsOffsets reply)
          tsPage := some (b, page) })))
      else (false, none, s)
    | none => (false, none, s)
  else if die.tsTries + 1 < 3 then
    let s := s.updChan k j (·.updDie d (fun x => { x with tsTries := x.tsTries + 1 }))
    (true, none, (s.pushReq k j (ChReq.plain .cb .readTs d blk 0 0 0 31 (.calib d.val) 0 false)).count k 0x314)
  else (false, none, s.updChan k j (·.updDie d (fun x => { x with tsTries := 0 })))

/-- The next block of a channel's measured pass is asked for: page 0, sector 0 of its first pending block (R278). -/
def State.nextMeasured (s : State) (k : SliceId) (j : Nat) : State :=
  match (s.slice k).passTodo.find? (fun key => decide (key / 131072 = j)) with
  | some key => s.pushCalib k (ch16 j) (fin8 (key / 16384)) (key % 16384) 0
  | none => s

/-- A slice's blocks become pending in a pass (R275); a checkpoint under way is given up, since none is written during a pass (R279; DEDUCED, log entry
103). -/
def State.passSlice (s : State) (k : SliceId) (kind : Nat) : State :=
  let keys := (s.slice k).media.heldKeys
  let s := s.updSlice k (fun x => { x with
    passTodo := keys
    media := { x.media with ckpt := none, passCk := false, blocks := x.media.blocks.map (fun b => if b.2.holds then (b.1, { b.2 with untrusted := true }) else b) } })
  if kind = 2 then (List.range 16).foldl (fun s j => s.nextMeasured k j) s else s

/-- A pass becomes the one in force (R264, R277, R278): 1 exact, 2 measured; the ledger is stored. -/
def State.passBegin (s : State) (kind : Nat) : State :=
  let s := (s.putTime (fun t => { t with pass := kind, w := s.beat.w, tFix := s.beat.tFix, delta := s.beat.delta, progress := 0 })).store
  s.liveSlices.foldl (fun s k => s.passSlice k kind) { s with beat := { s.beat with due := 0 } }

/-- Every present slice has finished the pass: it works, none being reset, and nothing is pending in it (R279). A pass that a cold start runs again is not
finished before step 11. -/
def State.passDone (s : State) : Bool :=
  !s.rst.coldSteps.contains 11 && s.liveSlices.all (fun k => s.working k && (s.slice k).passTodo.isEmpty)

/-- The checkpoint that each slice writes when a pass ends begins (R279). -/
def State.passCkpts (s : State) : State :=
  if s.timeRec.pass = 0 || !s.passDone then s
  else s.liveSlices.foldl (fun s k => s.updMedia k (fun m => if m.passCk || m.ckpt.isSome then m else m.beginCkpt s.beat.events)) s

/-- The pass that follows the one that ends: the one that this power-on's epoch fix asks for, which has waited for a pass of an earlier power-on; or, behind
the exact pass, the measured one where the profile permits the epoch to move backward or the time record showed UNCONFIRMED at this start (R278). -/
def State.nextPass (s : State) : Nat :=
  if s.beat.due ≠ 0 then s.beat.due
  else if s.timeRec.pass = 1 && s.beat.epoch != .unfixed && (s.epochBackward || s.beat.unconfStart) then 2 else 0

/-- The pass in force ends: its state is cleared in the time record, UNCONFIRMED only when the code fixed the epoch, and the ledger is stored (R264, R279). -/
def State.passEnd (s : State) : State :=
  let next := s.nextPass
  let s := (s.putTime (fun t => { t with pass := 0, unconfirmed := t.unconfirmed && s.beat.epoch != .code })).store
  if next = 0 then s else (s.passBegin next).passCkpts

/-- Once every present slice has finished the pass, each writes a checkpoint; then the pass ends (R279). -/
def State.passCheck (s : State) : State :=
  if s.timeRec.pass = 0 || !s.passDone then s
  else if s.liveSlices.all (fun k => (s.slice k).media.passCk) then s.passEnd else s.passCkpts

/-- The pass that an epoch fix asks for starts, or waits for step 11 of the start in progress or for the pass that still runs. -/
def State.startPass (s : State) (kind : Nat) : State :=
  if s.rst.todo.contains 11 || s.timeRec.pass ≠ 0 then { s with beat := { s.beat with due := kind } }
  else (s.passBegin kind).passCheck

/-- The epoch is fixed at E by a frame or a host (R268, R269, R277): the counter is set and the exact pass starts. -/
def State.fixEpoch (s : State) (e : BitVec 64) (way : Epoch) : State :=
  let t := s.beat.now
  let s := { s with beat := { s.beat with epoch := way, now := e, tFix := t, delta := e - t, slew := 0 } }
  s.startPass 1

/-- One block of the exact pass (R277): its new PROGRAM_BEAT and whether it must be refreshed or collected. -/
def exactBeat (now l w tFix delta : Nat) (b : Block) : BitVec 48 × Bool :=
  let p := fullBeat b.beat now
  let p := if w < p ∧ p ≤ tFix then p + delta else p
  if l + 10 ^ 13 ≤ now ∧ p ≤ l then (BitVec.ofNat 48 (now - 10 ^ 13), true) else (BitVec.ofNat 48 p, false)

/-- Set REFRESH, recorded, or start garbage collection of a journal block. -/
def Media.ask (m : Media) (now key : Nat) (b : Block) : Media :=
  if b.use == .journal then m.askCollect (key / 16384) (key % 16384)
  else if b.refresh then m else m.setBlock now (key / 131072) (key / 16384 % 8) (key % 16384) { b with refresh := true }

/-- EXACT_PASS (R277, R278): the sweep of one slice. A block later than the counter under R263 is left to a measured read. -/
def execExactPass (k : SliceId) (s : State) : Host.Outcome State Fault Refusal :=
  .next (
    let t := s.timeRec
    if t.pass ≠ 1 then s
    else
      let now := s.beat.now.toNat
      let late := fun (b : Block) => decide (now < fullBeat b.beat (t.l.toNat + 2 ^ 47))
      let s := (s.slice k).passTodo.foldl (fun (s : State) key => s.updMedia k (fun m =>
        match SMap.get? m.blocks key with
        | none => m
        | some b =>
          if late b then m
          else
            let r := exactBeat now t.l.toNat t.w.toNat t.tFix.toNat t.delta.toNat b
            let b' := { b with beat := r.1, untrusted := false }
            let m := m.setBlock s.beat.events (key / 131072) (key / 16384 % 8) (key % 16384) b'
            if r.2 then m.ask s.beat.events key b' else m)) s
      let s := s.updSlice k (fun x => { x with passTodo := x.passTodo.filter (fun key => match SMap.get? x.media.blocks key with | some b => late b | none => false) })
      let s := (List.range 16).foldl (fun s j => s.nextMeasured k j) s
      s.passCheck)

/-- Effective band whose entries lie nearest the measured offsets (R278): the later band on a tie. -/
def nearestBand (x : Slice) (cd : Nat) (oneBit : Bool) (t : Nat) (off : BitVec 24) : Nat :=
  let dist := fun (a : Nat) => (List.range (if oneBit then 1 else 3)).foldl (fun n i =>
    n + (16 * (off.extractLsb' (8 * i) 8).toInt - lensV (x.lensEntry cd oneBit a t) i).natAbs) 0
  (List.range 12).foldl (fun best a => if dist a ≤ dist best then a else best) 0

/-- Lower edge of an age band (Table 08-4). -/
def bandEdge (a : Nat) : Nat := if a = 0 then 0 else 10 ^ (a + 2)

/-- A block of the measured pass is re-anchored by the offsets measured (R278). -/
def State.reanchor (s : State) (k : SliceId) (j : ChanId) (d : DieId) (key : Nat) (off : BitVec 24) : State :=
  let t := ((s.chan k j).dies[d]).band
  let b := (s.slice k).media.block j.val d.val (key % 16384)
  let e := nearestBand (s.slice k) (j.val * 8 + d.val) (b.mode == 2) t off
  let a := if 2 ≤ t then e - (t - 1) else e
  let b := { b with beat := (s.beat.now - BitVec.ofNat 64 (bandEdge a)).setWidth 48, tempMax := t, untrusted := false }
  let s := s.updMedia k (·.setBlock s.beat.events j.val d.val (key % 16384) b)
  let s := s.updSlice k (fun x => { x with passTodo := x.passTodo.filter (· != key) })
  s.putTime (fun t => { t with progress := t.progress + 1 })

/-- MEASURED_PASS_BLOCK (R278): the operation on the next block of its channel ended, with the reply to its READ_TS. A block that gave no
measurement stays the channel's next. -/
def execMeasuredPassBlock (k : SliceId) (key : Nat) (reply : List Byte) (s : State) : Host.Outcome State Fault Refusal :=
  .next (
    let x := s.slice k
    let j := ch16 (key / 131072)
    let d : DieId := fin8 (key / 16384)
    let first := x.passTodo.find? (fun n => decide (n / 131072 = j.val))
    let waits := (s.chan k j).arb.queue.any (fun r => r.work == .calib d.val)
    if s.timeRec.pass = 0 || first != some key || waits then s
    else match s.tsReply k j d (key % 16384) reply with
      | (true, _, s) => s
      | (false, some off, s) => (((s.count k 0x409).reanchor k j d key off).nextMeasured k j.val).passCheck
      | (false, none, s) => (s.count k 0x409).nextMeasured k j.val)

/-- CHECKPOINT (R233, R279): the next page of a checkpoint under way. One begins when the ring holds more than 64 MiB of records since the last, but not
during a pass, and in each slice when a pass ends. -/
def execCheckpoint (k : SliceId) (s : State) : Host.Outcome State Fault Refusal :=
  .next (
    if !s.working k then s
    else match (s.slice k).media.ckpt with
      | none => if s.timeRec.pass = 0 && decide (64 * 2 ^ 20 < (s.slice k).media.ringBytes) then s.updMedia k (·.beginCkpt s.beat.events) else s.passCheck
      | some run =>
        let s := s.ckptStep k run
        if s.timeRec.pass ≠ 0 && (s.slice k).media.ckpt.isNone then (s.updMedia k (fun m => { m with passCk := true })).passCheck else s)

/-! ## The age sweep (R245, R308) -/

/-- AGE_SWEEP: skipped while CALIBRATING is set. -/
def execAgeSweep (k : SliceId) (s : State) : Host.Outcome State Fault Refusal :=
  .next (
    if s.beat.events < (s.slice k).pacer.sweepAt + 2 ^ 24 then s
    else
      let s := s.updSlice k (fun x => { x with pacer := { x.pacer with sweepAt := s.beat.events } })
      if s.calibrating then s
      else (s.slice k).media.heldKeys.foldl (fun s key => s.updMedia k (fun m =>
        match SMap.get? m.blocks key with
        | some b =>
          let age := s.age b
          if b.use == .journal then (if 10 ^ 11 ≤ age then m.ask s.beat.events key b else m)
          else if 10 ^ 13 ≤ age then m.ask s.beat.events key b else m
        | none => m)) s)

/-! ## Calibration (R283, R284, R307) -/

/-- (Mode, effective band) combinations of a die that hold data. -/
def State.combos (s : State) (k : SliceId) (cd : Nat) : List (Bool × Nat) :=
  (((s.slice k).media.blocks.filter (fun b => decide (b.1 / 16384 = cd) && b.2.holds)).map (fun b => (b.2.mode == 2, s.effBand b.2))).eraseDups

/-- Written pages of a block of the reserved area: of the ring those that its records reach, of a checkpoint area all of a checkpoint or those written of one
under way (R222, R233). -/
def Media.areaPages (m : Media) (j b : Nat) : Nat :=
  let pages := fun (bl : List Nat) (n : Nat) => (bl.findIdx? (· == b)).map (fun i => min 512 (n - 512 * i))
  let ck := fun (area : Bool) (c : Option Checkpoint) => pages (m.ckptBlocks j area)
    (if c.isSome then ckptPages else match m.ckpt with | some r => if r.area == area then r.page else 0 | none => 0)
  (((pages (m.ringBlocks j) (ceilDiv (recBytes (if j = 0 then m.ring else m.ringB)) 4096)).orElse (fun _ => ck true m.ckA)).orElse (fun _ => ck false m.ckB)).getD 0

/-- Written pages of a block: all of a data block, those behind the head of a journal block, those programmed of an open fold. -/
def State.writtenPages (s : State) (k : SliceId) (j d b : Nat) : Nat :=
  let m := (s.slice k).media
  let x := m.block j d b
  let jn := m.journal (j * 8 + d)
  if x.use == .journal then (if jn.ring.getLast? = some b then jn.headPage else 512)
  else if x.use == .reserved then m.areaPages j b
  else if x.use == .openFold then (((m.foldSet j).find? (fun f => f.blk == b && f.die.val == d)).map (·.page)).getD 0
  else if x.mode == 2 then 512 else 1024

/-- The block a rotating pointer finds next for a combination (R284). -/
def State.nextSample (s : State) (k : SliceId) (cd ptr : Nat) (c : Bool × Nat) : Option Nat :=
  let ok := ((s.slice k).media.blocks.filter (fun b => decide (b.1 / 16384 = cd) && b.2.holds && (b.2.mode == 2) == c.1 && s.effBand b.2 == c.2)).map (fun b => b.1 % 16384)
  match ok.find? (fun b => decide (ptr ≤ b)) with
  | some b => some b
  | none => ok.head?

/-- A sweep of some die is running on the slice (R307). -/
def State.sweeping (s : State) (k : SliceId) : Bool := (s.bgOf (fun b => match b with | .lensSweep q _ => q == k | _ => false)).isSome

/-- Ask for a measured read of a die's combination at a random written page. -/
def State.sample (s : State) (k : SliceId) (j : ChanId) (d : DieId) (c : Bool × Nat) : State :=
  match s.nextSample k (j.val * 8 + d.val) ((s.chan k j).dies[d]).calPtr c with
  | none => s
  | some b =>
    let n := max 1 (s.writtenPages k j.val d.val b)
    let page := (Config.random s.free 16).toNat % n
    ({ s with free := s.free + 1 }).pushCalib k j d b page

/-- CALIBRATION_INTERVAL (R284, R307): the combination sampled least recently is asked for. -/
def execCalibrationInterval (k : SliceId) (j : ChanId) (d : DieId) (s : State) : Host.Outcome State Fault Refusal :=
  .next (
    let die := (s.chan k j).dies[d]
    if !die.present || die.failed || s.timeRec.pass = 2 || s.sweeping k || s.beat.events < die.calAt + (s.slice k).pacer.parm.cal then s
    else
      let s := s.updChan k j (·.updDie d (fun x => { x with calAt := s.beat.events }))
      let cs := s.combos k (j.val * 8 + d.val)
      match (cs.find? (fun c => !die.calOrder.contains c)).orElse (fun _ => die.calOrder.find? (fun c => cs.contains c)) with
      | some c => s.sample k j d c
      | none => s)

/-- The combination of a calibration operation leaves the LENS_CALIBRATE sweep of its slice, which ends when nothing of it is left (R401). -/
def State.sweepStep (s : State) (k : SliceId) (cd : Nat) (c : Bool × Nat) : State :=
  match s.bgOf (fun b => match b with | .lensSweep q _ => q == k | _ => false) with
  | none => s
  | some p =>
    match (s.head p).bg with
    | some ⟨.lensSweep q todo, _, _, _, abort, _⟩ =>
      let left := todo.filter (fun t => !(t.1 == cd && t.2.1 == c.1 && t.2.2 == c.2))
      let s := s.bgKind p (.lensSweep q left)
      if left.isEmpty && !abort then s.endVendor p .success 0 (leBytes 8 0) else s
    | _ => s

/-- CALIBRATION_READ (R171, R178, R283, R284, R401): the operation on a block ended, with the reply to its READ_TS. -/
def execCalibrationRead (k : SliceId) (j : ChanId) (d : DieId) (blk : Nat) (reply : List Byte) (s : State) : Host.Outcome State Fault Refusal :=
  .next (
    let die := (s.chan k j).dies[d]
    let cd := j.val * 8 + d.val
    let b := (s.slice k).media.block j.val d.val blk
    let waits := (s.chan k j).arb.queue.any (fun r => r.work == .calib d.val && r.block == blk)
    if !die.present || die.failed || !b.holds || waits then s
    else
      let c := (b.mode == 2, s.effBand b)
      match s.tsReply k j d blk reply with
      | (true, _, s) => s
      | (false, got, s) =>
        let s := s.count k 0x409
        let s := match got with
          | some off => s.refine k j d b off
          | none => s
        (s.updChan k j (·.updDie d (fun x => { x with calOrder := x.calOrder.filter (· != c) ++ [c], calPtr := blk + 1 }))).sweepStep k cd c)

/-! ## Scrub (R244, R245, R305, R306) -/

/-- Bits set of a block's map of sectors. -/
def sectorCount (v : Nat) : Nat := ((List.range 16384).filter (fun i => v.testBit i)).length

/-- Sectors remaining of a die's scrub pass (R305). -/
def Die.scrubLeft (d : Die) : Nat := d.scrubTodo.foldl (fun n e => n + sectorCount e.2) 0

/-- Blocks of a die that its scrub pass reads (R305), each with the map of the sectors of its written pages. -/
def State.scrubSectors (s : State) (k : SliceId) (j d : Nat) : SMap Nat :=
  ((s.slice k).media.blocks.filter (fun b => decide (b.1 / 16384 = j * 8 + d) && (b.2.use == .data || b.2.use == .journal || b.2.use == .reserved))).filterMap
    (fun b => match s.writtenPages k j d (b.1 % 16384) with
      | 0 => none
      | n => some (b.1 % 16384, 2 ^ (16 * n) - 1))

/-- A new scrub pass of a die starts. -/
def State.startScrub (s : State) (k : SliceId) (j : ChanId) (d : DieId) : State :=
  let n := s.scrubSectors k j.val d.val
  s.updChan k j (·.updDie d (fun x => { x with scrubTodo := n, scrubDue := scrubCadence x.band, overdue := false }))

/-- What a scrub pass has left to read is no more than what is written: pages reset meanwhile are not. -/
def State.scrubPrune (s : State) (k : SliceId) (j : ChanId) (d : DieId) : State :=
  let now := s.scrubSectors k j.val d.val
  s.updChan k j (·.updDie d (fun x => { x with scrubTodo := x.scrubTodo.filterMap (fun e => match e.2 &&& SMap.getD now e.1 0 with
    | 0 => none
    | v => some (e.1, v)) }))

/-- The media read that a scrub read amounts to at its step, for its requests. -/
def State.scrubOf (s : State) (k : SliceId) (j : ChanId) (d : DieId) (x : ScrubRead) : MediaRead :=
  let b := (s.slice k).media.block j.val d.val x.block
  { s.newRead k .repair (4 * x.sector) 0 Desc.forTree ⟨k.val, j.val, d.val, x.block % 16, 0, x.page⟩ (b.mode == 2) x.block x.page with step := x.step, off := x.off }

/-- Raise the SC requests of a scrub read's step (Table 08-7, Table 06-1): a READ, a READ naming TS31, or three READ_SOFTs with their scratch sets. -/
def State.raiseScrub (s : State) (k : SliceId) (j : ChanId) (d : DieId) (x : ScrubRead) : State :=
  let rd := s.scrubOf k j d x
  let send := fun (s : State) (rd : MediaRead) (ts : Nat) => s.pushReq k j { rd.req ts with rq := .sc, die := d, work := .scrub d.val, mandatory := false }
  let s := s.updChan k j (·.updDie d (fun y => { y with scrub := some x }))
  if x.step = 0 then send s rd (s.effBand ((s.slice k).media.block j.val d.val x.block) + (if rd.oneBit then 16 else 0))
  else if x.step = 1 then send s rd 31
  else (List.range 3).foldl (fun s t => send s { rd with tries := t } (MediaRead.scratch { rd with tries := t })) (s.loadScratch k rd)

/-- What a step brought for codeword i of the sector: one READ's, or those of the three READ_SOFTs, codeword by codeword of each. An erased codeword of a
written page counts as uncorrectable (R228). -/
def ScrubRead.tries (x : ScrubRead) (rs : List Sense) (i : Nat) : List CwRead :=
  if x.step ≤ 1 then (rs[i]?.map (fun r => cwRead r.bits)).toList
  else (List.range 3).filterMap (fun t => rs[4 * t + i]?.map (fun r => cwClass r.bits (cwSoft r.bits r.rel)))

/-- Bits corrected by the decode that gave a codeword, if one did. -/
def goodBits (ts : List CwRead) : Option Nat := ts.findSome? (fun t => match t with | .good _ n => some n | _ => none)

/-- A step of a scrub read has landed (R168, R306). -/
def ScrubRead.lands (x : ScrubRead) (rs : List Sense) : ScrubRead :=
  { x with
    bad := x.bad.filter (fun i => (goodBits (x.tries rs i)).isNone)
    worst := if x.step = 0 then x.bad.foldl (fun n i => max n ((goodBits (x.tries rs i)).getD 0)) x.worst else x.worst
    off := if x.step = 1 then (rs.head?.map (·.off)).getD x.off else x.off }

/-- The line that a codeword of a sector holds by the tables: a journal page by the overlay, a data page by the block map, and none where they take the line from
elsewhere. -/
def State.lineOfSector (s : State) (k : SliceId) (j : ChanId) (d : DieId) (x : ScrubRead) (i : Nat) : Option Nat :=
  let m := (s.slice k).media
  let cd := j.val * 8 + d.val
  let pk : Option Nat := if (m.block j.val d.val x.block).use == .journal
    then (m.overlay.find? (fun e => decide (e.1 / 2 ^ 24 = cd) && e.2.jblock == x.block && e.2.jpage == x.page)).map (·.1)
    else (m.bmap.find? (fun e => decide (e.1 / 2 ^ 14 = cd) && e.2.st == .mapped && e.2.phys == x.block)).map (fun e => e.1 * 1024 + x.page)
  (pk.bind (fun p => s.lineOfPage k p (4 * x.sector + i % 4))).filter (fun l => match s.lineSource k l with
    | some (_, .media _ b p) => b == x.block && p == x.page
    | _ => false)

/-- A codeword that still fails after step 2 goes to background repair, whose ladder goes on at step 3 (R306, R289). A line that the front store holds whole needs
none, nor does a node that table SRAM holds. -/
def State.scrubRepair (s : State) (k : SliceId) (j : ChanId) (d : DieId) (x : ScrubRead) (i : Nat) : State :=
  match s.lineOfSector k j d x i with
  | none => s
  | some line =>
    let held := match (s.slice k).front.look line with | .full _ _ _ => true | _ => false
    let rd := { s.scrubOf k j d { x with step := 3 } with line := line }
    if held then s
    else match treeOf line with
      | some (_, level, idx) =>
        let busy := (s.slice k).reads.any (fun r => match r.why with | .node l n _ _ _ => l == level && n == idx | _ => false)
        if 2 ≤ level || busy then s else s.enterRead k { rd with why := .node level idx none .mx false }
      | none => match s.regionAt (line * 64) with
        | none => s
        | some (reg, desc, _) =>
          let rd := s.newRead k .repair line reg desc ⟨k.val, j.val, d.val, x.block % 16, 0, x.page⟩ rd.oneBit x.block x.page
          s.startRepair k { rd with off := x.off, nodes := if desc.mode == .sealed then [1, 0] else [] } 3

/-- A scrub read has ended (R245, R306): a sector of which a codeword needed step 1 or later, or 5 corrected bits, asks for a refresh; codewords that still fail
after step 2 go to background repair. Where untrusted age makes the read start at step 1 (R288), a codeword needs more than that step (DEDUCED; log entry 97).
The pass that it ends is followed by the next. -/
def State.scrubDone (s : State) (k : SliceId) (j : ChanId) (d : DieId) (x : ScrubRead) : State :=
  let s := s.updChan k j (·.updDie d (fun y => { y with scrub := none }))
  let s := if x.first < x.step || !x.bad.isEmpty || 5 ≤ x.worst then s.wantRefresh k j.val d.val x.block else s
  let s := x.bad.foldl (fun s i => s.scrubRepair k j d x i) s
  if ((s.chan k j).dies[d]).scrubLeft = 0 then s.startScrub k j d else s

/-- Codewords that a step of a scrub read brings: the four of the sector, by each of its reads. -/
def ScrubRead.wants (x : ScrubRead) : Nat := if x.step = 2 then 12 else 4

/-- SCRUB_READ (R305, R306): one sector of the pass that has not been read yet, under the quota. The command raises the read; once its requests are served, it
lands what they brought: the next step of the ladder follows, or the sector is done. -/
def execScrubRead (k : SliceId) (j : ChanId) (d : DieId) (blk page sector : Nat) (rs : List Sense) (s : State) : Host.Outcome State Fault Refusal :=
  .next (
    let die := (s.chan k j).dies[d]
    if !die.present || die.failed then s
    else match die.scrub with
      | none =>
        let s := s.scrubPrune k j d
        let todo := SMap.getD ((s.chan k j).dies[d]).scrubTodo blk 0
        let bit := 16 * page + sector
        if die.quota < 2 ^ 32 || 16 ≤ sector || !todo.testBit bit then s
        else
          let s := s.updChan k j (·.updDie d (fun x => { x with quota := x.quota - 2 ^ 32, scrubTodo := SMap.put x.scrubTodo blk (todo - 2 ^ bit) }))
          let first := s.firstStep ((s.slice k).media.block j.val d.val blk)
          (s.count k 0x407).raiseScrub k j d ⟨blk, page, sector, first, first, [0, 1, 2, 3], 0, 0⟩
      | some x =>
        if x.block ≠ blk || x.page ≠ page || x.sector ≠ sector || !(s.chan k j).workDone (.scrub d.val) || rs.length < x.wants then s
        else
          let x := x.lands rs
          let s := if x.step = 1 then s.measured k (s.scrubOf k j d x) else s
          if x.step < 2 && !x.bad.isEmpty then s.raiseScrub k j d { x with step := x.step + 1 } else s.scrubDone k j d x)

/-- SCRUB_PASS_LATE (R306): the deadline passed with sectors remaining: counted once, and the whole remainder due at once. -/
def execScrubPassLate (k : SliceId) (j : ChanId) (d : DieId) (s : State) : Host.Outcome State Fault Refusal :=
  .next (
    let s := s.scrubPrune k j d
    let die := (s.chan k j).dies[d]
    if !die.present || die.failed || die.scrubDue ≠ 0 || die.scrubTodo.isEmpty || die.overdue then s
    else (s.count k 0x408).updChan k j (·.updDie d (fun x => { x with scrubLate := satInc x.scrubLate, overdue := true, quota := max x.quota (x.scrubLeft * 2 ^ 32) })))

end Sys2Proof.Machine
end

