-- ==== Sys2Proof/Machine/Beats.lean ====
section
/-! DEFINITION. Beat events, the beat code, loss and return of the beat, and the epoch (R254, R256–R271, R525–R527, R531). -/

namespace Sys2Proof.Machine

/-! ## What a beat event does in a slice -/

/-- Some requester that is eligible has a raised request on the channel, or a tenure is in force (R527). -/
def State.workWaiting (s : State) (k : SliceId) (j : ChanId) : Bool :=
  let a := (s.chan k j).arb
  a.owner.isSome || !a.tail.isEmpty || a.chosen.isSome || a.queue.any (fun r => s.eligible k j r.rq)

/-- Slot accounting of one beat on a channel, 400 slots (R525–R527): retired, wasted, front-starved, back-starved, and what is left
over for the next beat. -/
def slotShare (acct : Vector Nat 2) (waiting : Bool) : (Nat × Nat × Nat × Nat) × Vector Nat 2 :=
  let r := min acct[0] 400
  let w := min acct[1] (400 - r)
  let rest := 400 - r - w
  ((r, w, if waiting then 0 else rest, if waiting then rest else 0), #v[acct[0] - r, acct[1] - w])

/-- A channel's part of a beat event from its training on: slots accounted (R525), READ_TEMP raised every 256 beats once the slice works (R184). -/
def State.beatChan (s : State) (k : SliceId) (j : ChanId) : State :=
  let c := s.chan k j
  if !c.up || !s.channelRail k then s
  else
    let ((r, w, f, b), left) := slotShare c.acct (s.workWaiting k j)
    let s := s.updChan k j (fun c => { c with acct := left })
    let s := ((((s.countSlot k j 0x010 400).countSlot k j 0x011 r).countSlot k j 0x012 w).countSlot k j 0x013 f).countSlot k j 0x014 b
    let s := s.updSlice k (fun x => { x with snap := { x.snap with slots := zipV (· + ·) x.snap.slots #v[r, w, f, b] } })
    if s.beat.events % 256 ≠ 0 || !s.working k then s
    else (List.finRange 8).foldl (fun s d =>
      let die := (s.chan k j).dies[d]
      if die.present && !die.failed && !((s.chan k j).arb.queue.any (fun q => q.sq == .readTemp && q.die == d)) then
        s.pushMx k j d .readTemp 0 0 (.temp d.val)
      else s) s

/-- Tokens of the wear governor for one beat (R254): C · D / (64 · 86,400,000,000) lines, in 1/256 lines, the fraction carried. -/
def State.beatTokens (s : State) (m : Media) : Media :=
  let num := s.capacity / s.nSlices * (s.profByte 35).toNat * 4 + m.tokenFrac
  { m with tokens := min (m.tokens + num / 86400000000) (2 ^ 28), tokenFrac := num % 86400000000 }

/-- A slice's part of a beat event: the credits of every channel are refilled from the first event after its reset (R196, R197), governor tokens come and
scrub deadlines near (R254, R305), and its trained channels account for their slots. -/
def State.beatSlice (s : State) (k : SliceId) : State :=
  if (s.slice k).st == .lost then s
  else
    let s := s.updSlice k (fun x => { x with
      chans := mapV x.chans (fun c => { c with arb := c.arb.refill, dies := mapV c.dies (fun d => { d with scrubDue := d.scrubDue - 1 }) })
      media := s.beatTokens x.media
      pacer := { x.pacer with pos := x.pacer.pos.map (· + 1) } })
    let s := if s.working k then s.count k 0x20D (s.dirty k) else s
    (List.finRange 16).foldl (fun s j => s.beatChan k j) s

/-! ## Health changes (R531) -/

/-- Hardware Replacement Needed (Table 11-6): the cause slice or rail lost. -/
def State.replaceHw (s : State) : Bool := s.health.causes.getLsbD 1

/-- Corrected persistent errors (Table 11-6): codewords decoded at step 1 or later. -/
def State.corrPersist (s : State) : Nat := (s.health.errors[2]).toNat + (s.health.errors[3]).toNat + (s.health.errors[4]).toNat

/-- The health bits and threshold tests of R531; a threshold of 0 is never crossed. -/
def State.healthBits (s : State) : BitVec 8 :=
  let a := s.firm.alert
  let t := wholeDeg s.hotSlice.2
  BitVec.ofNat 8 (bitAt s.replace 0 + bitAt s.degraded 1 + bitAt s.replaceHw 2 +
    bitAt (a.lifeUsed != 0 && decide (a.lifeUsed.toNat ≤ s.wearUsed)) 3 +
    bitAt (a.overTemp != 0 && decide (a.overTemp.toInt ≤ t)) 4 +
    bitAt (a.underTemp != 0 && decide (t ≤ a.underTemp.toInt)) 5 +
    bitAt (a.corrVolatile != 0 && decide (a.corrVolatile.toNat ≤ (s.health.errors[0]).toNat)) 6 +
    bitAt (a.corrPersist != 0 && decide (a.corrPersist.toNat ≤ s.corrPersist)) 7)

/-- Compare the health bits with those last compared, and write a Memory Module record for each change: of a status bit either way,
of a threshold when it is crossed. -/
def State.noteHealth (s : State) : State :=
  let now := s.healthBits
  let diff := now ^^^ s.health.seen
  if diff = 0 then s
  else
    let s := { s with health := { s.health with seen := now } }
    (List.range 8).foldl (fun s i => if diff.getLsbD i && (decide (i < 3) || now.getLsbD i) then s.moduleRecord i else s) s

/-! ## Beat events (R258, R262, R267) -/

/-- The counter's part of a beat event: it rises by one, or on every second event while it slews. -/
def Beat.tick (b : Beat) : Beat :=
  let rise := b.slew = 0 || b.slewOdd
  { b with
    now := if rise then b.now + 1 else b.now
    slew := if b.slew = 0 || b.slewOdd then b.slew else b.slew - 1
    slewOdd := if b.slew = 0 then false else !b.slewOdd
    events := b.events + 1
    stride := min (b.stride + 1) (2 ^ 21 - 1)
    sinceValid := b.sinceValid.map (fun n => min (n + 1) (2 ^ 22))
    heldFrame := b.heldFrame.map (fun h => (h.1, h.2 + 1)) }

/-- Beats spent in each band by the hottest die (Table 12-16). -/
def Health.beat (h : Health) (t : Option Int) : Health :=
  match t with
  | some v =>
    let i : Fin 5 := ⟨tempBand v % 5, Nat.mod_lt _ (by decide)⟩
    { h with temps := h.temps.set i (h.temps[i] + 1) }
  | none => h

/-- One beat event. Durations in beats count these. -/
def State.beatEvent (s : State) : State :=
  let s := { s with beat := s.beat.tick, health := s.health.beat s.mediaMax }
  (s.sliceIds.foldl (fun s k => s.beatSlice k) s).noteHealth

/-! ## Pulses and frames (R256–R260) -/

/-- What an accepted pulse does to the frame in progress (Table 08-1); a pulse that is not a beat spoils the frame that it belongs to (R260). -/
def Beat.pulse (b : Beat) (high : Nat) (taken : Bool) : Beat :=
  let open' := match b.frame with | some (n, _) => decide (n < 80) | none => false
  if 450 ≤ high ∧ high ≤ 900 then { b with frame := some (0, 0), stride := 0, codeErr := b.codeErr || open', spoiled := !taken }
  else if 900 < high then { b with frame := none, codeErr := b.codeErr || open' }
  else match b.frame with
    | some (n, v) => if n < 80 then { b with frame := some (n + 1, (v <<< 1) ||| (if 200 ≤ high then 1 else 0)), spoiled := b.spoiled || !taken } else { b with frame := none }
    | none => b

/-- An edge is accepted: 40 ns high, and 900 ns after the one accepted before, if any (R256). -/
def Beat.accepts (b : Beat) (high since : Nat) : Bool := decide (40 ≤ high) && (!b.taken || decide (900 ≤ since))

/-- The edge comes 0.9 to 1.1 µs after the one before (R266). -/
def regularEdge (since : Nat) : Bool := decide (900 ≤ since ∧ since ≤ 1100)

/-- BEAT_EDGE (R256, R257, R260, R266): while the beat is lost an edge is no beat event; it counts toward the return, whose eighth edge is
BEAT_RETURN. Operands in ns: how long the pulse stays high, and the time since the last accepted edge. -/
def execBeatEdge (high since : Nat) (s : State) : Host.Outcome State Fault Refusal :=
  .next (
    if !s.beat.accepts high since then s.sliceIds.foldl (fun s k => s.count k 0x30A) s
    else if s.beat.lost then
      if s.beat.regular = 7 && regularEdge since then s
      else { s with beat := { (s.beat.pulse high false) with taken := true, regular := if regularEdge since then s.beat.regular + 1 else 1 } }
    else
      let s := s.beatEvent
      { s with beat := { (s.beat.pulse high true) with taken := true, firstBeat := s.beat.firstBeat.orElse (fun _ => some s.beat.events) } })

/-! ## Frames (R260, R267–R271) -/

/-- EPOCH of a whole frame whose CRC matches (R259). -/
def frameEpoch (v : BitVec 80) : Option (BitVec 64) :=
  let e : BitVec 64 := v.extractLsb' 16 64
  if crc16Epoch e = v.extractLsb' 0 16 then some e else none

/-- A valid frame with target T acts on the counter (R267, R269, R271). -/
def State.applyFrame (s : State) (t : BitVec 64) : State :=
  let d : Int := (t.toNat : Int) - (s.beat.now.toNat : Int)
  match s.beat.epoch with
  | .unfixed => if 0 ≤ d then s.fixEpoch t .code else { s with beat := { s.beat with backward := true } }
  | .code =>
    if d = 0 then { s with beat := { s.beat with slew := 0, slewOdd := false } }
    else if 0 < d then { s with beat := { s.beat with now := t, slew := 0, slewOdd := false, resync := true } }
    else { s with beat := { s.beat with slew := d.natAbs, slewOdd := false, resync := true } }
  | _ =>
    if 2 < d.natAbs && !s.beat.differed then
      let s := s.vendorAll .informational 0x0402 0xFF 0xFF 0xFF 0 (BitVec.ofInt 64 d).toNat 0
      ({ s with beat := { s.beat with differed := true } }).putTime (fun t => { t with unconfirmed := true })
    else s

/-- BEAT_CODE_FRAME (R260, R267, R268): the 80th data pulse has been taken. An invalid frame is only noted; one before the end of
boot step 03 is held. -/
def execBeatCodeFrame (s : State) : Host.Outcome State Fault Refusal :=
  .next (match s.beat.frame with
    | some (80, v) =>
      match frameEpoch v with
      | none => { s with beat := { s.beat with frame := none, codeErr := true } }
      | some e =>
        if s.beat.spoiled then { s with beat := { s.beat with frame := none, codeErr := true } } else
        let s := { s with beat := { s.beat with frame := none, sinceValid := some 0 } }
        if !s.beat.loaded then { s with beat := { s.beat with heldFrame := some (e, 0) } }
        else s.applyFrame (e + 80)
    | _ => s)

/-! ## Loss and return (R265, R266) -/

/-- BEAT_LOST (R265): 3 µs without an accepted edge. Three beat events follow at once; a frame in progress ends. -/
def execBeatLost (ns : Nat) (s : State) : Host.Outcome State Fault Refusal :=
  .next (
    if ns < 3000 || s.beat.lost then s
    else
      let open' := match s.beat.frame with | some (n, _) => decide (n < 80) | none => false
      let s := { s with beat := { s.beat with
        lost := true
        lossDeclared := true
        lostCount := satInc s.beat.lostCount
        frame := none
        codeErr := s.beat.codeErr || open'
        regular := 0 } }
      let s := s.vendorAll .informational 0x0401 0xFF 0xFF 0xFF 0 s.beat.lostCount.toNat 0
      s.beatEvent.beatEvent.beatEvent)

/-- DERIVED_BEAT (R265): a microsecond of the oscillator while the beat is lost. -/
def execDerivedBeat (s : State) : Host.Outcome State Fault Refusal := .next (if s.beat.lost then s.beatEvent else s)

/-- BEAT_RETURN (R266): the eighth regular edge; it is a beat event unless a derived one fell less than 500 ns before. -/
def execBeatReturn (high since derivedAgo : Nat) (s : State) : Host.Outcome State Fault Refusal :=
  .next (
    if !s.beat.lost || s.beat.regular ≠ 7 || !s.beat.accepts high since || !regularEdge since then s
    else
      let s := { s with beat := { s.beat with lost := false, resync := true, regular := 0, taken := true } }
      let s := if derivedAgo < 500 then s else s.beatEvent
      { s with beat := { (s.beat.pulse high (decide (500 ≤ derivedAgo))) with firstBeat := s.beat.firstBeat.orElse (fun _ => some s.beat.events) } })

/-- EPOCH_PROVISIONAL (R268, R278): 30,000,000 beat events without a fix. -/
def execEpochProvisional (s : State) : Host.Outcome State Fault Refusal :=
  .next (
    if s.beat.epoch != .unfixed || s.beat.events < 30000000 then s
    else
      let s := { s with beat := { s.beat with epoch := .provisional, tFix := s.beat.now, delta := 0 } }
      let s := s.putTime (fun t => { t with unconfirmed := true })
      s.startPass 2)

end Sys2Proof.Machine
end

