-- ==== Sys2Proof/Machine/Rekey.lean ====
section
/-! DEFINITION. Dropping pages and blocks of a region from a slice, and the chunks of a rekey (R92, R248, R345, R348). -/

namespace Sys2Proof.Machine

/-! ## Dropping contents -/

/-- Drop every line for which `p` holds from the front store of a slice: frames, spill entries, the poison list, held
repairs, drains and fills in flight (R248, R341). -/
def State.evict (s : State) (k : SliceId) (p : Nat → Bool) : State :=
  let drains := (s.slice k).media.drains.filter (fun d => match s.lineOfPage k d.key 0 with | some l => p l | none => false)
  let s := drains.foldl (fun s d => s.dropWork k (ch16 (d.key / 2 ^ 27)) (.drain d.key)) s
  let s := s.updSlice k (fun x =>
    let fr := (x.front.dir.filter (fun e => (e.2.present || e.2.filling) && p (e.2.seg * 32))).map (·.1)
    let f := (fr.foldl (fun (f : Front) n => f.release n s.beat.now) x.front).freeSpill (fun _ sp => p sp.line)
    { x with
      front := { f with
        poison := f.poison.filter (fun l => !p l)
        aged := f.aged.filter (fun n => !fr.contains n) }
      reads := x.reads.map (fun r => if p r.line then { r with clean := false, fill := none } else r)
      holding := x.holding.filter (fun h => !p h.1)
      tree := { x.tree with dirty := (x.tree.putBack drains).dirty.filter (fun n => !(decide (n.level < 2) && p (treeLine k.val n.level n.idx))) }
      media := { x.media with
        drains := x.media.drains.filter (fun d => !drains.any (fun e => e.key = d.key))
        lateLines := x.media.lateLines.filter (fun l => !p l) } })
  { s with health := { s.health with known := s.health.known.filter (fun e => !p e.1) } }

/-- A whole page reads as zero (R248): an OVERLAY_SET of no sectors with KIND ZERO. -/
def Media.zeroPage (m : Media) (now pk : Nat) : Media :=
  let m := (m.setOverlay now pk ⟨0, 0, 0, .zero, false, (m.entry (pk / 1024)).drainGen, m.seq⟩).unmarkAll now (· == pk)
  { m with waiting := m.waiting.filter (· != pk) }

/-- A logical block reads as zero (R248): a fold open on it abandoned, MAP_ENTRY UNMAPPED, its overlay entries cleared, its
block released. -/
def State.unmapBlock (s : State) (k : SliceId) (key : Nat) : State :=
  let c := key / 2 ^ 17
  let d := key / 2 ^ 14 % 8
  let old := (s.slice k).media.entry key
  if old.st == .dead then s
  else
    let s := match (s.slice k).media.foldSet c |>.find? (fun f => f.key = key) with
      | some f =>
        let s := s.dropWork k (ch16 c) (.fold key)
        s.updMedia k (fun m => (m.abandonFold s.beat.events key f.blk).release s.beat.events c d f.blk)
      | none => s
    let s := s.updMedia k (fun m =>
      let e := m.entry key
      let m := m.setMap s.beat.events key { e with st := .unmapped, phys := 0, folding := false }
      let m := ((m.entriesOf key).foldl (fun (m : Media) o => m.clearOverlay s.beat.events o.1) m).unmarkAll s.beat.events (fun pk => pk / 1024 == key)
      { m with
        urgent := m.urgent.filter (· != key)
        refresh := m.refresh.filter (fun r => r.1 != key)
        waiting := m.waiting.filter (fun p => p / 1024 != key) })
    if old.st == .mapped then s.releaseBlock k c d old.phys false else s

/-- Blocks whose folding makes room in the overlay set of a page are folded first (R229, R235). -/
def Media.makeRoom (m : Media) (pk : Nat) : Media :=
  let others := (m.overlay.filter (fun e => ovSet e.1 == ovSet pk)).map (fun e => e.1 / 1024)
  { m with urgent := others.foldl (fun u key => if u.contains key then u else u ++ [key]) m.urgent }

/-! ## Chunks of a rekey (R345, R348) -/

/-- A rekey has to write a group: it has a home on a slice that is not lost, in a block that is not DEAD, and is not zero by the map. -/
def State.rekeyHolds (s : State) (d : Desc) (group : Nat) : Bool :=
  match s.regionAt (group * 4096) with
  | none => false
  | some (_, _, u) =>
    match s.groupHome d u (group * 4096) with
    | .at p =>
      let x := s.slice (fin8 p.slice)
      let e := x.media.entry (p.key)
      let zero := match SMap.get? x.media.overlay p.pageKey with
        | some o => o.kind == .zero && o.sectors == 0
        | none => e.st == .unmapped
      !(x.st == .lost || zero || e.st == .dead)
    | _ => false

/-- Groups of a chunk that its rekey has to write. -/
def State.chunkGroups (s : State) (d : Desc) (ptr : Nat) : List Nat :=
  ((List.range 1024).map (fun i => d.base * 2 ^ 16 + ptr * 2 ^ 10 + i)).filter (s.rekeyHolds d)

/-- Load the chunk at REKEY_PTR of a region whose keys are Loaded; its rekey is paused otherwise (R340). -/
def State.loadChunk (s : State) (r : Nat) : State :=
  match SMap.get? s.desc r with
  | some d => if d.st == .rekeying && s.keysLoaded d then { s with chunks := SMap.put s.chunks r (s.chunkGroups d d.rekeyPtr) } else s
  | none => s

/-- Rekeys that a reset left without a chunk go on from REKEY_PTR (R348). -/
def State.resumeRekeys (s : State) : State :=
  s.desc.foldl (fun s e => if e.2.st == .rekeying && (SMap.get? s.chunks e.1).isNone then s.loadChunk e.1 else s) s

end Sys2Proof.Machine
end

