-- ==== Sys2Proof/Machine/Pace.lean ====
section
/-! DEFINITION. The Pacer's laps and splits, telemetry snapshots, the hold-up ceiling, and the thermal monitor (R292–R305,
R447, R448, R505–R519, R529). -/

namespace Sys2Proof.Machine

/-! ## Splits and laps (R292, R300–R305) -/

/-- One channel at the end of split n (R300, R302): the overrun joins the deficit, which is held to 65,535; not while budgets are suspended (R312). -/
def PaceCh.splitEnd (p : PaceCh) (n : Nat) (suspended : Bool) : PaceCh × Nat × Nat :=
  let excess := if suspended then 0 else p.spent - p.splitBudget
  let d := p.deficit + excess
  ({ p with
    deficit := min d 65535
    overSum := p.overSum + BitVec.ofNat 48 excess
    lastSplit := if suspended then (0, 0, 0) else (n, p.spent, p.splitBudget) }, excess, d - 65535)

/-- Split budgets of a lap: a quarter each, the last with the rest (R301). -/
def splitBudgetOf (lap n : Nat) : Nat := if n < 3 then lap / 4 else lap - 3 * (lap / 4)

/-- SPLIT_END (R300, R302): four beat events after it opened a split ends and the next opens with its own budget. -/
def execSplitEnd (k : SliceId) (s : State) : Host.Outcome State Fault Refusal :=
  .next (
    let pc := (s.slice k).pacer
    match pc.pos with
    | none => s
    | some n =>
      if n < 4 * pc.ended + 4 || 4 ≤ pc.ended then s
      else
        let s := (List.finRange 16).foldl (fun s j =>
          if !(s.chan k j).up then s
          else
            let (p, excess, lost) := (s.chan k j).pace.splitEnd pc.split (s.suspended k)
            let s := s.updChan k j (fun c => { c with pace := { p with spent := 0, splitBudget := splitBudgetOf p.lapBudget (pc.ended + 1) } })
            (s.count k 0x404 excess).count k 0x40B lost) s
        s.updSlice k (fun x => { x with pacer := { x.pacer with ended := x.pacer.ended + 1 } }))

/-- Journal pressure (R235). -/
def State.journalPressure (s : State) (k : SliceId) : Bool :=
  let x := s.slice k
  let m := x.media
  decide (3 * 2097152 < 4 * m.overlay.length) ||
    (List.finRange 16).any (fun j => (x.chans[j]).up && (List.finRange 8).any (fun d =>
      ((x.chans[j]).dies[d]).present && !((x.chans[j]).dies[d]).failed && decide (m.pagesAhead (j.val * 8 + d.val) < 1024)))

/-- Sprint at a lap boundary (R303): entered above three quarters of the share or under journal pressure, left at or below five
eighths without it. -/
def State.sprintNext (s : State) (k : SliceId) : Bool :=
  let p := s.journalPressure k
  if (s.slice k).pacer.sprint then p || decide (5 * s.share < 8 * s.dirty k) else p || decide (3 * s.share < 4 * s.dirty k)

/-- One channel at a lap boundary (R301): its budgets from its deficit. -/
def PaceCh.lap (p : PaceCh) (nominal : Nat) (sprint : Bool) : PaceCh :=
  let floor := nominal / 4
  let b := max (nominal - p.deficit) floor
  { p with
    lapBudget := b
    splitBudget := splitBudgetOf b 0
    deficit := p.deficit - (nominal - b)
    repaidSum := p.repaidSum + BitVec.ofNat 48 (nominal - b)
    floorLaps := if b = floor then p.floorLaps + 1 else p.floorLaps
    sprintLaps := if sprint then p.sprintLaps + 1 else p.sprintLaps
    spent := 0
    lapSpent := Vector.replicate 6 0 }

/-- Scrub quota of a die at a lap boundary (R305, R306): R / N sectors, N whole laps before the deadline, at least 1. -/
def Die.lapQuota (d : Die) : Die := { d with quota := d.quota + d.scrubLeft * 2 ^ 32 / max 1 (d.scrubDue / 16) }

/-- A scrub pass that has no sector left to read has ended, and the next starts (R305). -/
def State.scrubAgain (s : State) (k : SliceId) (j : ChanId) : State :=
  (List.finRange 8).foldl (fun s d =>
    let s := s.scrubPrune k j d
    let x := (s.chan k j).dies[d]
    if x.present && !x.failed && x.scrubLeft = 0 && x.scrub.isNone then s.startScrub k j d else s) s

/-- LAP_BOUNDARY (R292, R301–R305, R314): parameters waiting take effect, sprint is decided, budgets are set and scrub quotas
grow; a rekey that a reset interrupted goes on (R348). The first lap opens after boot step 12 of the slice. -/
def execLapBoundary (k : SliceId) (s : State) : Host.Outcome State Fault Refusal :=
  .next (
    let x := s.slice k
    let first := x.pacer.pos.isNone
    let ready := x.st == .working && x.todo.isEmpty && !s.rst.todo.contains 12
    let due := match x.pacer.pos with | none => ready | some n => decide (16 ≤ n) && decide (4 ≤ x.pacer.ended)
    if !due then s
    else
      let s := s.updSlice k (fun x => { x with pacer := { x.pacer with parm := x.pacer.next.getD x.pacer.parm, next := none } })
      let sp := s.sprintNext k
      let nominal := 64 * (if sp then (s.slice k).pacer.parm.sprint else (s.slice k).pacer.parm.normal)
      let s := (List.finRange 16).foldl (fun s j =>
        if !(s.chan k j).up then s
        else
          let p := (s.chan k j).pace.lap nominal sp
          let paid := nominal - p.lapBudget
          let s := s.scrubAgain k j
          let s := s.updChan k j (fun c => { c with pace := p, dies := mapV c.dies (fun d => if d.present && !d.failed then d.lapQuota else d) })
          let s := ((s.count k 0x400).count k 0x405 paid).count k 0x401 (if sp then 1 else 0)
          if p.lapBudget = nominal / 4 then
            (s.count k 0x406).updSlice k (fun x => { x with snap := { x.snap with floors := x.snap.floors + 1 } })
          else s) s
      s.resumeRekeys.updSlice k (fun x => { x with pacer := { x.pacer with
        pos := some (if first then 0 else x.pacer.pos.getD 16 - 16)
        ended := 0
        sprint := sp
        suspended := false
        laps := x.pacer.laps + 1 } }))

/-! ## Telemetry (R311, R505, R506, R529) -/

/-- Dirty level of a slice in 64ths of its share (Table 09-5), saturating at its field. -/
def State.dirty64 (s : State) (k : SliceId) : Nat := min 127 (if s.share = 0 then 0 else 64 * s.dirty k / s.share)

/-- FLAGS of HEALTH_EXT (Table 12-16). -/
def State.healthFlags (s : State) : Nat :=
  bitAt s.replace 0 + bitAt s.degraded 1 + bitAt s.calibrating 2 + bitAt s.readOnly 3 + bitAt s.governor 4 + bitAt s.ledgerWorn 5 +
    bitAt s.detoured 6

/-- Words of the sections selected, in ascending bit order (Table 17-4). -/
def State.sectionWords (s : State) (p : Port) (sec : BitVec 16) : List (BitVec 64) :=
  let x := s.slice p
  let w := fun (n : Nat) => BitVec.ofNat 64 n
  let on := fun (i : Nat) (l : List (BitVec 64)) => if sec.getLsbD i then l else []
  on 0 [s.regStatus p, s.regTherm p, s.regHoldup] ++
  on 1 [w (s.healthState + s.healthFlags * 2 ^ 8 + min s.wearUsed 255 * 2 ^ 16 + s.spareLeft * 2 ^ 24 + s.health.causes.toNat * 2 ^ 32 +
      s.sliceOk * 2 ^ 40 + s.rst.skipped.toNat * 2 ^ 48), w (s.health.links.toNat + s.shadow.stores * 2 ^ 32)] ++
  on 2 s.health.errors.toList ++
  on 3 (x.counters.toList.map (fun c => w (c.value.toNat + c.event.toNat * 2 ^ 48 + bitAt c.ovf 60))) ++
  on 4 (s.sliceIds.map (fun k =>
    let y := s.slice k
    w (s.dirty64 k + bitAt y.pacer.sprint 7 + bitAt (s.journalPressure k) 8 + deg8 (wholeDeg (s.sliceTemp k)) * 2 ^ 16 + y.pct * 2 ^ 24 +
      y.chans.toList.foldl (fun m c => max m c.pace.deficit) 0 * 2 ^ 32 + min y.snap.floors 65535 * 2 ^ 48))) ++
  on 5 (x.snap.slots.toList.map w) ++
  on 6 [w (min x.snap.frWait (2 ^ 24 - 1) + x.snap.late % 2 ^ 24 * 2 ^ 32), w (x.snap.excess % 2 ^ 32 + x.snap.cut % 2 ^ 32 * 2 ^ 32)] ++
  on 7 [s.beat.reg]

/-- One head's record: header words and sections (R529). -/
def State.record (s : State) (p : Port) : List (BitVec 64) :=
  let sec := (s.head p).tq.sections
  let body := s.sectionWords p sec
  BitVec.ofNat 64 (s.firm.telSeq % 2 ^ 32 + sec.toNat * 2 ^ 32 + (body.length + 2) * 2 ^ 48 + p.val * 2 ^ 56) :: s.beat.now :: body

/-- Place a record whole or not at all (R506), 512 entries; DROPPED saturates (Table 02-17). -/
def Queue.place (q : Queue) (r : List (BitVec 64)) : Queue :=
  if 512 < q.q.length + r.length then { q with overrun := true, dropped := BitVec.ofNat 16 (min (q.dropped.toNat + r.length) 65535) }
  else { q with q := q.q ++ (match r with | [] => [] | w :: ws => (w, true) :: ws.map (fun v => (v, false))) }

/-- TELEMETRY_SNAPSHOT (R311, R360): at every 65,536th beat event from the end of boot step 12, one that a lost beat took with others too (R265). SEQUENCE counts
the points; a point during a management restart takes no snapshot. -/
def execTelemetrySnapshot (s : State) : Host.Outcome State Fault Refusal :=
  .next (match s.beat.step12 with
    | none => s
    | some b =>
      if (s.beat.events - b) / 65536 ≤ s.beat.points then s
      else
        let s := { s with beat := { s.beat with points := s.beat.points + 1 }, firm := { s.firm with telSeq := s.firm.telSeq + 1 } }
        if s.rst.mgmtDown then s
        else
          let s := s.sliceIds.foldl (fun s p =>
            if !(s.head p).tq.enable then s
            else
              let before := (s.head p).tq.q.length
              let r := s.record p
              (s.updHead p (fun h => { h with tq := h.tq.place r })).tqLevel p before) s
          s.mapSlices (fun x => { x with snap := Snap.reset }))

/-! ## Hold-up (R447, R448) -/

/-- Flush cost of a channel in slots, for the work a flush would do now (R447). -/
def State.flushCost (s : State) (k : SliceId) (j : Nat) : Nat :=
  let f := (s.slice k).front
  let lines := f.dirtyList.filterMap (fun l => match s.lineHome l.1 with
    | some (.at p, i) => if p.chan = j then some (p.pageKey * 16 + i / 4, l.2) else none
    | _ => none)
  let sectors := (lines.map (·.1)).eraseDups
  let pages := (sectors.map (· / 16)).eraseDups
  let nodes := ((s.slice k).tree.dirty.filter (fun n => decide (2 ≤ n.level) && (match s.treePlace k.val n.level n.idx with | some (p, _) => p.chan == j | none => false))).length
  let bytes := (s.slice k).media.buffer.foldl (fun n r => n + r.bytes.length) 0
  10 * pages.length +
    sectors.foldl (fun n sec => n + 44 + (if (lines.filter (fun l => l.1 = sec && !l.2)).length = 4 then 0 else 41)) 0 +
    95 * nodes + (if j % 8 = 0 then 44 * ceilDiv bytes 256 else 0)

/-- Largest flush cost of a slice's channels. -/
def State.maxCost (s : State) (k : SliceId) : Nat := (List.range 16).foldl (fun m j => max m (s.flushCost k j)) 0

/-- RHO_SAMPLE (R447): every 65,536 beats, a slice at or above 1/8 of its share samples ρ; sixteen samples are kept. -/
def execRhoSample (k : SliceId) (s : State) : Host.Outcome State Fault Refusal :=
  .next (
    let d := s.dirty k
    if !s.working k || s.beat.events < (s.slice k).rhoAt + 65536 then s
    else s.updSlice k (fun x => { x with
      rhoAt := s.beat.events
      rho := if d = 0 || 8 * d < s.share then x.rho else ((s.maxCost k, d) :: x.rho).take 16 }))

/-- Recompute the ceiling that hold-up allows (R448). -/
def State.recomputeCeil (s : State) : State :=
  let n := s.profCeiling / 64
  let best := ((List.range n).filter (fun i => s.projFits ((i + 1) * 64 * 16384))).foldl (fun m i => max m (i + 1)) 0
  let below := best = 0
  let s := { s with power := { s.power with holdCeil := if below then 64 else 64 * best, belowFloor := below } }
  (if below then s.setReplace 4 else s.clearReplace 4).grantCredits

/-- HOLDUP_CEILING_RECOMPUTE (R448): every 65,536 beats. -/
def execHoldupCeilingRecompute (s : State) : Host.Outcome State Fault Refusal :=
  .next (
    if s.rst.todo.contains 12 || s.beat.events < s.power.ceilAt + 65536 then s
    else State.recomputeCeil { s with power := { s.power with ceilAt := s.beat.events } })

/-- DUP_ENTRY_EXPIRE (R71): 10,000,000 beats after its command completed. -/
def execDupEntryExpire (p : Port) (tag : BitVec 16) (s : State) : Host.Outcome State Fault Refusal :=
  .next (s.updHead p (fun h => { h with dup := h.dup.filter (fun e => !(e.tag == tag && e.rsp.isSome && decide (e.done + 10000000 ≤ s.beat.events))) }))

/-! ## Temperature (R510–R519) -/

/-- Throttle percentage at a temperature in 1/96 °C (R513): 16/3 points for each degree above the start. -/
def throttle (t : Int) (ts : Nat) : Nat :=
  let d := t - 96 * (ts : Int)
  if d ≤ 0 then 100 else max 20 (100 - ceilDiv d.toNat 18)

/-- A sensor has failed (R512): a reading outside −40 °C to 150 °C, or four samples that spread by more than 8 °C. -/
def sensorBad (samples : List Int) : Bool :=
  let hi := samples.foldl max (samples.headD 0)
  let lo := samples.foldl min (samples.headD 0)
  samples.any (fun t => decide (t < -320 ∨ 1200 < t)) || (decide (samples.length = 4) && decide (64 < hi - lo))

/-- SRAM timing band of a slice temperature in 1/96 °C (R511, R519): up at the edge, and above 100 °C for T4 (Table 08-5); down once it is 2 °C below the edge. -/
def sramBandNext (old : Nat) (t : Int) : Nat :=
  let v := t - 96 * 3
  let edges : List Int := [40, 65, 85, 100]
  let up := (edges.filter (fun e => decide (96 * e ≤ v ∧ (e = 100 → 96 * e < v)))).length
  let down := (edges.filter (fun e => decide (96 * (e - 2) < v))).length
  if old < up then up else if down < old then down else old

/-- New samples of a slice sensor. -/
def State.slicesSample (s : State) (readings : List (Nat × Int)) : State :=
  s.sliceIds.foldl (fun s k =>
    match readings.find? (fun r => r.1 = k.val) with
    | none => s
    | some (_, t) =>
      let l := (t :: (s.slice k).samples).take 4
      let bad := !(s.slice k).sensorFailed && sensorBad l
      let s := s.updSlice k (fun x => { x with samples := l, sensorFailed := x.sensorFailed || bad })
      let s := if bad then s.vendorAll .warning 0x0703 k.val 0xFF 0xFF 0 (BitVec.ofInt 64 t).toNat 0 else s
      let temp := s.sliceTemp k
      s.updSlice k (fun x => { x with pct := throttle temp s.throttleStart, sramBand := sramBandNext x.sramBand temp })) s

/-- Sensor at or above 115.0 °C (R517): the first slice, or 8 for the service die, with its temperature in 1/8 °C; a failed sensor never shuts down. -/
def State.tooHot (s : State) : Option (Nat × Int) :=
  match (s.sliceIds.filter (fun k => !(s.slice k).sensorFailed && !(s.slice k).samples.isEmpty && decide (11040 ≤ s.sliceTemp k))).head? with
  | some k => some (k.val, s.sliceTemp k / 12)
  | none =>
    let t := meanTemp s.power.svcSamples
    if !s.power.svcFailed && !s.power.svcSamples.isEmpty && decide (11040 ≤ t) then some (8, t / 12) else none

/-- Echo-clock capture delay and write data launch delay of an SRAM die under the set applied (R519). -/
def State.sramDelays (s : State) (k : SliceId) (die : Fin 4) : Nat × Nat := Config.sramTrim k.val (s.slice k).sramSet die.val

/-- SRAM_TIMING_SET_CHANGE (R519): the set of the band in force is applied. -/
def execSramTimingSetChange (k : SliceId) (s : State) : Host.Outcome State Fault Refusal :=
  .next (s.updSlice k (fun x => { x with sramSet := x.sramBand }))

end Sys2Proof.Machine
end

