-- ==== Sys2Proof/Machine/Reset.lean ====
section
/-! DEFINITION. The reaches of a reset: what each covers, clears and keeps, the sources held pending, and how one reach
meets a start in progress (R454–R456, R462–R466, Tables 14-1, 14-2, 14-5). -/

namespace Sys2Proof.Machine

/-- Steps of a package-warm start (Table 14-4). -/
def warmSteps : List Nat := [1, 3, 4, 5, 6, 8, 9, 10, 11, 12, 13]

/-- Steps of a slice start. -/
def sliceSteps : List Nat := [1, 4, 5, 8, 9, 10, 12]

/-- Steps of either list, in order (R463). -/
def joinSteps (a b : List Nat) : List Nat := allSteps.filter (fun n => a.contains n || b.contains n)

/-- BOOT_COUNT rises by one (R468). -/
def State.bootCounts (s : State) : State := s.putBoot (fun b => { b with count := b.count + 1 })

/-- A start begins: BOOT_COUNT rises (R468), in step 00 where that step has still to read the record. -/
def State.bootBegins (s : State) : State := if s.rst.todo.contains 0 then s else s.bootCounts

/-! ## Background commands cut by a reset (Table 14-5) -/

/-- A discard whose progress a reset loses: of a range, on its own or as the first step of REINIT. -/
def Discard.lostByReset (d : Discard) : Bool := !d.destroy && (!d.whole || d.reinit.isSome)

/-- Range discards of some regions are not resumed: the region returns to its state, pages handled stay zero. -/
def State.dropRanges (s : State) (f : Desc → Bool) (tell : Bool) : State :=
  (s.discards.filter (fun d => d.lostByReset && ((SMap.get? s.desc d.region).map f).getD true)).foldl (fun s d =>
    let s := { s with discards := s.discards.filter (fun e => e.region != d.region) }
    let s := if (SMap.get? s.desc d.region).any (·.st == .discarding) then s.modDesc d.region (fun x => { x with st := x.back }) else s
    match s.bgOf (fun b => match b with | .discard r | .rekey r _ => r = d.region | _ => false), tell with
    | some p, true => s.endVendor p .interrupted 0 []
    | _, _ => s) s

/-- Work of a slice that Table 14-5 does not resume ends the command that asked for it. -/
def State.endSliceWork (s : State) (k : SliceId) : State :=
  s.sliceIds.foldl (fun s p => match (s.head p).bg with
    | none => s
    | some b => match b.kind with
      | .sramRetire k' _ _ _ | .lensSweep k' _ => if k' = k then s.endVendor p .interrupted 0 [] else s
      | .scan lo hi _ =>
        if (s.mediaLines lo hi).any (fun e => e.1 = k) then
          (s.updHead p (fun h => { h with scanResults := [] })).endBg p .interrupted 0 none
        else s
      | _ => s) s

/-! ## Parts -/

/-- A channel after a reset of its slice, with the arbiter parameters of the profile in force (R197). -/
def State.freshChan (s : State) : Chan :=
  if s.prof.isEmpty then Chan.reset
  else { Chan.reset with arb := { Arb.reset with weights := weightsAt s.prof 64, holdLimit := field s.prof 76 2 } }

/-- A die after a reset of its slice: scrub progress, deadline and quota and the calibration position stay (Table 09-3), and so does what the die itself
holds until the channel's next training resets it: its mode registers, threshold sets and array operations. A sector that was being read is to be read again. -/
def Die.keepPasses (d : Die) : Die :=
  { Die.reset with
    mreg := d.mreg
    sets := d.sets
    tsPage := d.tsPage
    banks := d.banks
    band := d.band
    scrubTodo := (match d.scrub with
      | some x => SMap.put d.scrubTodo x.block (SMap.getD d.scrubTodo x.block 0 ||| 2 ^ (16 * x.page + x.sector))
      | none => d.scrubTodo)
    scrubDue := d.scrubDue
    overdue := d.overdue
    quota := d.quota + (if d.scrub.isSome then 2 ^ 32 else 0)
    calAt := d.calAt
    calOrder := d.calOrder
    calPtr := d.calPtr }

/-- A Pacer after a reset of its slice (Table 09-3), with the parameters of the profile in force. -/
def State.freshPacer (s : State) : Pacer :=
  ⟨if s.prof.isEmpty then PaceParm.default else pacerAt s.prof 80, none, none, 0, false, true, 0, 0⟩

/-- Media work in flight ends, and collections that were asked for start again; folds wait for the recovery of steps 09 and 10 (R242, R243). -/
def Media.cut (m : Media) : Media :=
  { m with drains := [], gcs := [], reencs := [], waiting := [], copying := 0, flying := 0, copyBad := false, ckpt := none, passCk := false }

/-- Block resets in progress are aborted (R442, Table 14-5): their blocks are reset again before use. -/
def State.abortResets (s : State) (k : SliceId) : State :=
  let hits : List (Nat × Nat × Nat) := (List.finRange 16).flatMap (fun j => (List.finRange 8).flatMap (fun d =>
    (((s.chan k j).dies[d]).banks).filterMap (fun b => match b.2.op with | .reset blk _ => some (j.val, d.val, blk) | _ => none)))
  let s := hits.foldl (fun s h => s.updMedia k (fun m => m.setBlock s.beat.events h.1 h.2.1 h.2.2 { m.block h.1 h.2.1 h.2.2 with aborted := true })) s
  s.updSlice k (fun x => { x with chans := mapV x.chans (fun c => { c with dies := mapV c.dies (fun d => { d with
    banks := d.banks.filter (fun b => match b.2.op with | .reset _ _ => false | _ => true) }) }) })

/-- Reads that other ports wait for on a slice complete with poison at the instant its reach takes effect (R466); a write that waits there without a
begun commit is discarded without a word (R135). -/
def State.failWaiting (s : State) (k : SliceId) : State :=
  let s := (s.slice k).reads.foldl (fun s rd => match rd.why with
    | .host r => if rd.done then s else s.completeCxl r 0 true rd.bound
    | _ => s) s
  (s.slice k).heldReqs.foldl (fun s h => if h.req.write then s else s.unreachable h.req h.region) s

/-- Clear a slice's own state (Table 14-2), once its channel controllers have ended every tenure (R205): its SRAM contents, tables and counter tree stay.
Accepted writes of its own port that have not committed are discarded (R135). In a package-warm reset every port goes too. -/
def State.clearSlice (s : State) (k : SliceId) (warm : Bool) : State :=
  let s := (s.endTenures k).abortResets k
  let s := s.mapSlices (fun x => { x with
    waiting := x.waiting.filter (fun r => r.port != k)
    heldReqs := x.heldReqs.filter (fun h => h.req.port != k) })
  let s := if warm then s else s.failWaiting k
  s.updSlice k (fun x => { x with
    st := .resetting
    ok := false
    quiesce := 0
    quiescedAt := 0
    cache := []
    cacheTree := 0
    cacheOn := true
    fill := none
    refills := []
    waiting := []
    heldReqs := []
    media := x.media.cut
    tree := x.tree.putBack x.media.drains
    chans := mapV x.chans (fun c => { s.freshChan with dies := mapV c.dies Die.keepPasses, aborts := c.aborts })
    pacer := { s.freshPacer with sweepAt := x.pacer.sweepAt }
    reads := []
    holding := []
    lens := if warm then x.lens else []
    lensImages := if warm then x.lensImages else []
    counters := Vector.replicate 16 Counter.reset
    ctrPending := none
    rho := [(714, 1024)]
    passTodo := []
    snap := Snap.reset })

/-- A head disabled until boot step 12. Its user-read bit stays: only cold, warm and port reach clear it (R528). -/
def Head.disabled (h : Head) : Head := { h.portReset with userRead := h.userRead, enabled := false, mboxReady := false, doorbells := [], latch := [], dbInt := false, bgInt := false }

/-- Requests of a port are gone: its reads in flight and its writes that have not committed (R76, R135). -/
def State.cutPort (s : State) (p : Port) : State := (s.portReach p).updHead p (fun h => { h with userRead := (s.head p).userRead })

/-! ## The reaches -/

/-- Slice reach of slice k (R454, R453). -/
def State.sliceReach (s : State) (k : SliceId) : State :=
  let s := s.mapHeads (fun h => { h with cause := { h.cause with sliceMask := setBit h.cause.sliceMask k.val true } })
  let s := s.sliceIds.foldl (fun s p => s.lastReach p 3) s
  let s := (s.endSliceWork k).dropRanges (fun d => d.uses k) true
  -- accepted writes to its lines that wait at another ingress slice are discarded too (R135)
  let s := s.mapSlices (fun x => { x with waiting := x.waiting.filter (fun r => !(r.write && s.ownerOf (r.dpa / 64) == some k.val)) })
  let s := s.clearSlice k false
  let s := (s.cutPort k).updHead k Head.disabled
  let s := s.updSlice k (fun x => { x with todo := joinSteps sliceSteps x.todo })
  let s := { s with chunks := [], rst := { s.rst with failedCh := s.rst.failedCh.filter (fun n => decide (n / 16 ≠ k.val)) } }
  let s := s.sliceIds.foldl (fun s j => if j = k then s else { s with health := { s.health with links := setBit s.health.links (s.linkIx j k) false } }) s
  s.reroute.bootBegins.grantCredits

/-- Firmware state after a package-warm or management reset: flash, keeper position and sequence numbers stay. -/
def Firm.lost (f : Firm) : Firm :=
  { Firm.reset with area0 := f.area0, area1 := f.area1, running := f.running, handle := f.handle, groupSeq := f.groupSeq, telSeq := f.telSeq, keeper := f.keeper }

/-- Package-warm reach: everything but the always-on island; the start runs its own steps and those an interrupted start had
left (R454, R463). -/
def State.warmReach (s : State) : State :=
  let s := s.sliceIds.foldl (fun s p => s.lastReach p 2) s
  let s := s.dropRanges (fun _ => true) false
  let s := s.sliceIds.foldl (fun s k => s.clearSlice k true) s
  let s := s.sliceIds.foldl (fun s p => (s.cutPort p).updHead p (fun h => { h.disabled with
    logs := Vector.replicate 4 Log.reset
    policy := Vector.replicate 4 ⟨0, 0⟩
    dup := []
    bg := none
    bgLast := none
    muted := false
    mutedBg := false
    limits := []
    userRead := false
    scanResults := []
    grantedManage := false })) s
  let s := s.mapSlices (fun x => { x with todo := [] })
  let s := { s with
    chunks := []
    firm := s.firm.lost
    health := { s.health with links := 0, linkFails := [], known := [] }
    rst := { s.rst with
      todo := joinSteps warmSteps s.rst.todo
      coldSteps := s.rst.coldSteps.filter (fun n => s.rst.todo.contains n)
      stopped := false
      ready := false
      pkgReset := none
      skipped := 0
      failedCh := []
      epochWait := false
      trimWait := false
      debugOpen := false
      mgmtDown := false
      heldEvents := []
      heldLost := []
      interrupted := []
      pendingSrc := [] } }
  s.bootBegins.grantCredits

/-- What a cold reset keeps of a slice: what lies on the medium. The SRAM tables are read back at step 10 (R234). -/
def Media.cold (m : Media) : Media :=
  { Media.reset with mapSeq := m.mapSeq, ring := m.ring, ringB := m.ringB, ckA := m.ckA, ckB := m.ckB, s0 := m.s0, deadDies := m.deadDies, lostOver := m.lostOver, health := m.health, unreadable := m.unreadable, config := m.config }

/-- Cold reach: once every channel controller has ended its tenures (R205), every state at its reset value but what flash, shadow, medium and fuses hold. -/
def State.coldReach (s : State) (causes : BitVec 11) : State :=
  let s := s.sliceIds.foldl (fun s k => s.endTenures k) s
  let (m, s) := s.draw
  let (n, s) := s.draw
  let s' : State := { State.reset with
    fused := s.fused
    heads := mapV s.heads (fun h => { Head.reset with lsa := h.lsa, cause := ⟨causes, 1, 0⟩, held := h.held })
    slices := mapV s.slices (fun x => { Slice.reset with
      media := x.media.cold
      chans := mapV x.chans (fun c => { Chan.reset with aborts := c.aborts })
      sramSet := x.sramSet
      tree := { Tree.reset with pinned := x.tree.pinned, seals := x.tree.seals, top := x.tree.top } })
    discards := (s.discards.filter (fun d => !d.lostByReset)).map (fun d => { d with handled := [] })
    beat := { Beat.reset with salt := Config.random n 35 }
    shadow := s.shadow.cutShort (Config.freeValue m 19)
    firm := { Firm.reset with area0 := s.firm.area0, area1 := s.firm.area1 }
    nextId := s.nextId
    free := s.free
    out := s.out
    pending := s.pending }
  { s' with
    power := { s'.power with thermReport := s.power.thermReport }
    rst := { s'.rst with brown := s.rst.brown, pinHeld := s.rst.pinHeld, dbgEn := s.rst.dbgEn, boundary := s.rst.boundary } }

/-- ZOR_CAUSE after a cold reset (R452): `first` is 1 POWER_ON, 2 BROWN_OUT or 0 for a warm return with VDD_AUX in range; WARM_RETURN
is the flag of the hold-up record of the last power-down. -/
def State.coldCauses (s : State) (first : Nat) : BitVec 11 :=
  let warm := match s.shadow.led.hold.cur with
    | some h => (h.downs.head?.map (·.warm)).getD false
    | none => false
  BitVec.ofNat 11 (first + bitAt warm 10)

/-- The processor complex loses its state (R359). A foreground command running on a head is cut, one whose response a port reset has
discarded already without a word more (R76); a ledger store in progress is the island's and ends whole. -/
def State.mgmtLost (s : State) : State :=
  let cut : List (Src × BitVec 16) := (match s.firm.store with | some (src, tag, _) => [(src, tag)] | none => []) ++
    s.firm.fences.map (fun f => (Src.head f.1.port, f.1.tag))
  let cut := cut.filter (fun c => match c.1 with | .head p => !(s.head p).muted | .i3c => true)
  let s := if s.firm.store.isSome then s.storeEnd else s
  let s := s.mapHeads (fun h => { h with dup := [], mboxReady := false, muted := false })
  { s with
    firm := { s.firm.lost with act := s.firm.act, trial := s.firm.trial }
    rst := { s.rst with mgmtDown := true, pkgReset := none, interrupted := s.rst.interrupted ++ cut } }

/-- Management reach: the processor complex only (R359). -/
def State.mgmtReach (s : State) : State := (s.sliceIds.foldl (fun s p => s.lastReach p 5) s).mgmtLost

/-! ## Sources (R451, R462, R464) -/

/-- A reset source takes effect: its cause bit, then its reach. -/
def State.applySource (s : State) (r : Reach) (bit : Nat) : State :=
  match r with
  | .cold => s
  | .warm => (s.causeAll bit).warmReach
  | .slice k => (s.causeAll bit).sliceReach k
  | .mgmt => (s.causeAll bit).mgmtReach
  | .port p =>
    if bit = 8 || bit = 9 then s.portSource p bit
    else ((s.causeAll bit).portReach p).lastReach p 4

/-- RESET_L, software, debug and PERST_L sources wait behind a ledger store; behind the flush they are recorded and
otherwise discarded, and nothing more comes of them (R464). -/
def State.source (s : State) (r : Reach) (bit : Nat) : State :=
  if s.power.flush != .idle then
    match r with
    | .port p => if bit = 8 then s.updHead p (fun h => { h with cause := { h.cause with bits := setBit h.cause.bits 8 true } }) else s.causeAll bit
    | _ => s.causeAll bit
  else if s.firm.store.isSome then { s with rst := { s.rst with pendingSrc := s.rst.pendingSrc ++ [(r, bit)] } }
  else s.applySource r bit

/-- The sources held behind a store take effect, in the order they came. -/
def State.releasePending (s : State) : State :=
  let l := s.rst.pendingSrc
  l.foldl (fun s e => s.applySource e.1 e.2) { s with rst := { s.rst with pendingSrc := [] } }

/-- Watchdog and lock-up act at once; the sources that waited on a cut store follow (R358, R464). During the trial of a new
image the ROM restarts the previous one (R371). -/
def State.mgmtFault (s : State) (bit : Nat) : State :=
  let s := (s.causeAll bit).mgmtReach
  ({ s with firm := { s.firm with trial := false } }).releasePending

/-! ## Pins (R460, R461, Table 14-3) -/

/-- A step of the package start has begun: it is the next to run or behind. -/
def State.stepReached (s : State) (n : Nat) : Bool := !s.rst.todo.contains n || s.rst.todo.head? == some n

/-- The device drives the pins of a group; otherwise they are high-impedance and the board's pulls give their level (R461). A step begins when it is the
next of its start. -/
def State.pinsDriven (s : State) : PinGroup → Bool
  | .i3c => !s.rst.todo.contains 0
  | .rails => !s.rst.coldSteps.contains 4 || s.rst.todo.head? == some 4
  | .spi => !s.rst.todo.contains 4
  | .uartTrace => s.stepReached 6 || s.rst.stopped
  | .chan k => s.present k && s.stepReached 8 && (!(s.slice k).todo.contains 8 || (s.slice k).todo.head? == some 8)
  | .port p => (s.head p).enabled && (s.head p).held == 0
  | .status => s.power.statusOut

/-- PERST (R76, R451, R464): HPn_PERST_L asserted. -/
def execPerst (p : Port) (s : State) : Host.Outcome State Fault Refusal := .next (if s.present p then s.source (.port p) 8 else s)

end Sys2Proof.Machine
end

