-- ==== Sys2Proof/Machine/Firmware.lean ====
section
/-! DEFINITION. Firmware images: the header, verification, transfer and activation (R361–R363, R370, R371). -/

namespace Sys2Proof.Machine

/-- SVN of an image (Table 11-3). -/
def imageSvn (im : List Byte) : Nat := field im 8 2

/-- REVISION of an image, header bytes 12–27. -/
def imageRev (im : List Byte) : List Byte := bytesAt im 12 16

/-- The SVN floor: the fused one or the ledger's, whichever is greater (R363). -/
def State.svnFloor (s : State) : Nat := max s.fused.svnFloor s.fwRec.svn

/-- An image is accepted (R362). -/
def State.imageOk (s : State) (im : List Byte) : Bool :=
  let size := field im 4 4
  let key := field im 10 1
  let pub := bytesAt im 112 96
  let body := (im.drop 512).take size
  decide (field im 0 4 = 0x5A465752) && decide (size % 128 = 0 ∧ 512 + size ≤ 4 * 2 ^ 20 ∧ 512 + size ≤ im.length) &&
    (match s.fused.keyHash[key]? with | some h => sha384 pub == h && !s.fused.revoked.getLsbD key | none => false) &&
    Config.ecdsaVerify pub (sha384 (im.take 304 ++ body)) (bytesAt im 304 96) &&
    decide (s.svnFloor ≤ imageSvn im) && decide (field im 11 1 / 2 ^ (3 - s.fused.s.val) % 2 = 1)


/-- Write a firmware area. -/
def Firm.putArea (f : Firm) (a : Fin 2) (im : Option (List Byte)) : Firm := if a = 0 then { f with area0 := im } else { f with area1 := im }

/-- Area of a firmware slot number: slot 1 is area 0 (R361). -/
def slotArea (slot : Nat) : Option (Fin 2) := if slot = 1 then some 0 else if slot = 2 then some 1 else none

/-- An image becomes primary: the ledger's firmware record and its floor, and the ledger is stored (R363, R370, R371). -/
def State.makePrimary (s : State) (a : Fin 2) (im : List Byte) (staged : Bool) : State :=
  let r : FwRec := ⟨a, max s.fwRec.svn (imageSvn im), if staged then some a else none⟩
  ({ s with led := { s.led with fw := s.led.fw.put r } }).store

/-- GET_FW_INFO (R375): two slots, the running image's slot, the slot named for next reset, both revisions. -/
def execGetFwInfo (src : Src) (s : State) : Host.Outcome State Fault Refusal :=
  .next (s.std src (.getFwInfo src) false none true (fun s =>
    let rev := fun (a : Fin 2) => ((s.firm.area a).map imageRev).getD []
    s.answer src .success (.firmware 2 (s.firm.running.val + 1) ((s.fwRec.next.map (fun a => a.val + 1)).getD 0) (rev 0) (rev 1))))

/-- Give a head's background command and answer Background Command Started. -/
def State.startBg (s : State) (p : Port) (k : BgKind) (op : BitVec 16) : State :=
  (s.updHead p (fun h => { h with bg := some ⟨k, op, 0, 0, false, 0⟩ })).answer (.head p) .backgroundStarted .none

/-- One part of a transfer, at an offset in 128-byte units; the end part goes on in the background (R370). -/
def State.transfer (s : State) (p : Port) (slot : Nat) (act : XferAction) (off : Nat) (data : List Byte) : State :=
  let no := fun (c : Rc) => s.answer (.head p) c .none
  let ends := match act with | .full | .finish => true | _ => false
  let grow := fun (sofar : List Byte) =>
    let s := { s with firm := { s.firm with xfer := some (p, slot, sofar ++ data) } }
    if ends then s.startBg p .fwTransfer 0x0201 else s.answer (.head p) .success .none
  -- its own end part goes on in the background: the slot is being written (check 6 of Table 11-4)
  let busy := (s.head p).bg.any (fun b => ends || b.kind == .fwTransfer)
  if busy then no .busy
  else
    let other := match s.firm.xfer with | some (q, _, _) => q != p | none => false
    if other then no .fwTransferInProgress
    else match act with
      | .abort => ({ s with firm := { s.firm with xfer := none } }).answer (.head p) .success .none
      | _ =>
        if slotArea slot = none || slotArea slot = some s.firm.running then no .invalidSlot
        else if data.length % 128 ≠ 0 then no .invalidInput
        else match act, s.firm.xfer with
          | .full, none | .initiate, none => if off ≠ 0 then no .fwOutOfOrder else if 4 * 2 ^ 20 < data.length then no .invalidInput else grow []
          | .full, some _ | .initiate, some _ => no .fwTransferInProgress
          | _, none => no .fwOutOfOrder
          | _, some (_, sl, sofar) =>
            if sl ≠ slot || off * 128 ≠ sofar.length then no .fwOutOfOrder
            else if 4 * 2 ^ 20 < sofar.length + data.length then no .invalidInput
            else grow sofar

/-- TRANSFER_FW (R370); a part longer than the payload is refused before its role is checked (R365). -/
def execTransferFw (src : Src) (slot : Nat) (act : XferAction) (off : Nat) (data : List Byte) (s : State) : Host.Outcome State Fault Refusal :=
  .next (s.std src (.transferFw src slot act off data) false (if 65536 < data.length then none else some 3) false (fun s =>
    match src with
    | .head p => if 65536 < data.length then s.answer src .invalidPayloadLength .none else s.transfer p slot act off data
    | .i3c => s))

/-- FW_TRANSFER_END (R370): the image verifies, is written and reads back, or the area is marked invalid. -/
def execFwTransferEnd (p : Port) (readBack : Bool) (s : State) : Host.Outcome State Fault Refusal :=
  .next (match (s.head p).bg, s.firm.xfer with
    | some b, some (_, slot, im) =>
      match b.kind, slotArea slot with
      | .fwTransfer, some a =>
        let s := { s with firm := { s.firm with xfer := none } }
        if s.rst.mgmtDown then s
        else if s.imageOk im && readBack then ({ s with firm := s.firm.putArea a (some im) }).endBg p .success 0 none
        else ({ s with firm := s.firm.putArea a none }).endBg p .fwVerificationFailed 0 none
      | _, _ => s
    | _, _ => s)

/-- A transfer that runs in the background is writing the area of a slot (check 6 of Table 11-4). -/
def State.slotWriting (s : State) (slot : Nat) : Bool := s.firm.xfer.any (fun x => x.2.1 = slot) && (s.bgOf (fun b => b == .fwTransfer)).isSome

/-- ACTIVATE_FW (R370, R371): for the next reset, or online, which resets the management reach and starts the new image. One that the ROM does not verify, as
when the SVN floor has risen since its transfer, never starts, and the previous image comes back. -/
def execActivateFw (src : Src) (slot : Nat) (online : Bool) (s : State) : Host.Outcome State Fault Refusal :=
  .next (s.std src (.activateFw src slot online) true (some 3) false (fun s =>
    match src with
    | .i3c => s
    | .head p =>
      if (online && (s.head p).bg.isSome) || s.slotWriting slot then s.answer src .busy .none
      else match (slotArea slot).bind (fun a => (s.firm.area a).map (fun im => (a, im))) with
        | none => s.answer src .invalidSlot .none
        | some (a, im) =>
          if s.storeRefused then s.answer src .resourcesExhausted .none
          else if !online then (s.makePrimary a im true).answer src .success .none
          else
            let s := s.startBg p (.fwActivate slot) 0x0202
            ({ s with firm := { s.firm with act := some (p, slot), trial := s.imageOk im } }).mgmtReach))

/-- FW_ACTIVATION_TIMEOUT (R371): an image that has not reached its ready point 500 ms after its start gives way to the
previous one, which the ROM restarts. -/
def execFwActivationTimeout (ms : Nat) (s : State) : Host.Outcome State Fault Refusal :=
  .next (if s.firm.act.isSome && s.firm.trial && decide (500 ≤ ms) then { s with firm := { s.firm with trial := false } } else s)

end Sys2Proof.Machine
end

