-- ==== Sys2Proof/Machine/Standard.lean ====
section
/-! DEFINITION. The standard commands of Table 11-6 but the firmware ones (R54–R59, R366, R369, R373–R376, R531). -/

namespace Sys2Proof.Machine

/-- The head whose own data a source reads: the sideband reads the lowest present head (R369). -/
def srcHead : Src → Port
  | .head p => p
  | .i3c => 0

/-- UNSUPPORTED_OPCODE (R375). -/
def execUnsupportedOpcode (src : Src) (op : BitVec 16) (s : State) : Host.Outcome State Fault Refusal :=
  .next (s.std src (.unsupportedOpcode src op) false none true (fun s => s.answer src .unsupported .none))

/-- IDENTIFY (R375). -/
def execIdentify (src : Src) (s : State) : Host.Outcome State Fault Refusal :=
  .next (s.std src (.identify src) false none true (fun s => s.answer src .success .memoryDevice))

/-- BACKGROUND_OPERATION_STATUS (R366). -/
def execBackgroundOperationStatus (src : Src) (s : State) : Host.Outcome State Fault Refusal :=
  .next (s.std src (.backgroundOperationStatus src) false none true (fun s =>
    let idle := StdReply.background false 0 0 .success 0
    s.answer src .success (match src with
      | .i3c => idle
      | .head p => match (s.head p).bg, (s.head p).bgLast with
        | some b, _ => .background true b.op b.percent .success 0
        | none, some l => .background false l.op 100 l.code l.ext
        | none, none => idle)))

/-- GET_RESPONSE_MESSAGE_LIMIT (R369): the sideband only. -/
def execGetResponseMessageLimit (src : Src) (s : State) : Host.Outcome State Fault Refusal :=
  .next (s.std src (.getResponseMessageLimit src) false none true (fun s =>
    match src with
    | .i3c => s.answer src .success (.limit 1024)
    | .head _ => s.answer src .unsupported .none))

/-- Role of a background command, by number (Tables 11-6 and 12-1). -/
def BgKind.role : BgKind → Nat
  | .retire _ _ | .rekey _ _ => 2
  | .fwTransfer | .fwActivate _ => 3
  | _ => 1

/-- Only a Scan Media or a sweep can be aborted (R366). -/
def BgKind.abortable : BgKind → Bool
  | .scan _ _ _ | .lensSweep _ _ => true
  | _ => false

/-- REQUEST_ABORT_BACKGROUND_OPERATION (R366): its role is that of the command aborted. -/
def execRequestAbortBackgroundOperation (src : Src) (s : State) : Host.Outcome State Fault Refusal :=
  .next (s.std src (.requestAbortBackgroundOperation src) false none false (fun s =>
    match src with
    | .i3c => s
    | .head p => match (s.head p).bg with
      | none => s.answer src .abortNotSupported .none
      | some b =>
        if !s.hasRole src b.kind.role then s.answer src .unsupported .none
        else if b.kind.abortable then (s.updHead p (fun h => { h with bg := some { b with abort := true } })).answer src .success .none
        else s.answer src .abortNotSupported .none))

/-- BACKGROUND_ABORT_BOUNDARY (R366): the aborted command ends at the next 4 MiB boundary of its work. -/
def execBackgroundAbortBoundary (p : Port) (s : State) : Host.Outcome State Fault Refusal :=
  .next (match (s.head p).bg with
    | none => s
    | some b =>
      if !b.abort then s
      else match b.kind with
        | .scan _ _ _ =>
          let s := s.sliceIds.foldl (fun s k => ((s.slice k).reads.filter (fun r => match r.why with | .scan q => q == p | _ => false)).foldl (fun s r => s.dropRead k r) s) s
          s.endBg p .aborted 0 none
        | .lensSweep _ _ => s.endVendor p .aborted 0 []
        | _ => s)

/-! ## Events -/

/-- GET_EVENT_RECORDS (R54, R369): the sideband's 1,024-byte messages hold seven records. -/
def execGetEventRecords (src : Src) (log : LogId) (s : State) : Host.Outcome State Fault Refusal :=
  .next (s.std src (.getEventRecords src log) false none true (fun s =>
    let l := (s.head (srcHead src)).logs[logIx log]
    let recs := match src with | .i3c => l.recs.take 7 | .head _ => l.recs
    s.answer src .success (.events recs l.overflow l.lost l.firstLost l.lastLost)))

/-- CLEAR_EVENT_RECORDS (R56): this head's log only; handles name its oldest records in order, or nothing is cleared. -/
def execClearEventRecords (src : Src) (log : LogId) (all : Bool) (handles : List Nat) (s : State) : Host.Outcome State Fault Refusal :=
  .next (s.std src (.clearEventRecords src log all handles) false none false (fun s =>
    match src with
    | .i3c => s
    | .head p =>
      let l := (s.head p).logs[logIx log]
      let put := fun (l : Log) => (s.updHead p (fun h => { h with logs := h.logs.set (logIx log) l })).answer src .success .none
      if all then put Log.reset
      else if (l.recs.take handles.length).map (·.handle) = handles then put { Log.reset with recs := l.recs.drop handles.length }
      else s.answer src .invalidHandle .none))

/-- GET_EVENT_INTERRUPT_POLICY (R375). -/
def execGetEventInterruptPolicy (src : Src) (s : State) : Host.Outcome State Fault Refusal :=
  .next (s.std src (.getEventInterruptPolicy src) false none true (fun s => s.answer src .success (.policy (s.head (srcHead src)).policy)))

/-- A log's setting is accepted: no interrupt, or MSI-X with the log's own vector of Table 02-2. -/
def policyOk (p : IntPolicy) (log : Fin 4) : Bool := p.mode == 0 || (p.mode == 1 && p.vector.toNat == log.val + 1)

/-- SET_EVENT_INTERRUPT_POLICY (R375). -/
def execSetEventInterruptPolicy (src : Src) (inf warn fail fat : IntPolicy) (s : State) : Host.Outcome State Fault Refusal :=
  .next (s.std src (.setEventInterruptPolicy src inf warn fail fat) false none false (fun s =>
    match src with
    | .i3c => s
    | .head p =>
      if policyOk inf 0 && policyOk warn 1 && policyOk fail 2 && policyOk fat 3 then
        let keep := fun (x : IntPolicy) => if x.mode = 0 then (⟨0, 0⟩ : IntPolicy) else x
        (s.updHead p (fun h => { h with policy := #v[keep inf, keep warn, keep fail, keep fat] })).answer src .success .none
      else s.answer src .invalidInput .none))

/-! ## Time (R59, R268–R270) -/

/-- GET_TIMESTAMP (R59). -/
def execGetTimestamp (src : Src) (s : State) : Host.Outcome State Fault Refusal :=
  .next (s.std src (.getTimestamp src) false none true (fun s => s.answer src .success (.timestamp (s.beat.now.toNat * 1000))))

/-- SET_TIMESTAMP (R59, R268–R270). -/
def execSetTimestamp (src : Src) (ns : BitVec 64) (s : State) : Host.Outcome State Fault Refusal :=
  .next (s.std src (.setTimestamp src ns) false (some 1) false (fun s =>
    let e : BitVec 64 := BitVec.ofNat 64 (ns.toNat / 1000)
    if s.beat.source = 0 then s.answer src .success .none
    else if s.beat.epoch != .unfixed then s.answer src .invalidInput .none
    else if e < s.beat.now then ({ s with beat := { s.beat with backward := true } }).answer src .invalidInput .none
    else (s.fixEpoch e .host).answer src .success .none))

/-! ## Logs and identity -/

/-- Entries of the Command Effects Log (R374): opcode; immediate policy and configuration change; background-capable. -/
def effectsLog : List (BitVec 16 × Bool × Bool) :=
  ([0x0001, 0x0002, 0x0003, 0x0005, 0x0100, 0x0101, 0x0102, 0x0103, 0x0200].map (fun (o : BitVec 16) => (o, false, false))) ++
  ([0x0201, 0x0202].map (fun (o : BitVec 16) => (o, false, true))) ++
  ([0x0300, 0x0301, 0x0400, 0x0401, 0x4000, 0x4100, 0x4102, 0x4103, 0x4200, 0x4201, 0x4202, 0x4203, 0x4204, 0x4300, 0x4301, 0x4302, 0x4303].map (fun (o : BitVec 16) => (o, false, false))) ++
  [(0x4304, false, true), (0x4305, false, false), (0xC000, false, false), (0xC001, false, false), (0xC002, true, false), (0xC003, true, false),
   (0xC010, true, false), (0xC011, true, false), (0xC012, true, true), (0xC013, true, true), (0xC014, false, false), (0xC015, true, false),
   (0xC016, false, false), (0xC020, true, false), (0xC021, true, true), (0xC022, false, false), (0xC023, true, true)] ++
  ([0xC030, 0xC031].map (fun (o : BitVec 16) => (o, false, false))) ++ [(0xC032, false, true)] ++
  ([0xC040, 0xC041, 0xC050, 0xC051, 0xC060, 0xC061, 0xC070, 0xC071, 0xC072, 0xC080, 0xC081].map (fun (o : BitVec 16) => (o, false, false))) ++
  [(0xC082, false, true), (0xC090, false, false), (0xC091, false, true)] ++
  ([0xC092, 0xC093, 0xC0A0, 0xC0B0, 0xC0C0, 0xC0D0, 0xC0E0].map (fun (o : BitVec 16) => (o, false, false)))

/-- GET_SUPPORTED_LOGS (R375): the Command Effects Log. -/
def execGetSupportedLogs (src : Src) (s : State) : Host.Outcome State Fault Refusal :=
  .next (s.std src (.getSupportedLogs src) false none true (fun s => s.answer src .success (.logs effectsLog.length)))

/-- GET_LOG (R374, R369): offset and length in bytes of a log of 4-byte entries. -/
def execGetLog (src : Src) (effects : Bool) (off len : Nat) (s : State) : Host.Outcome State Fault Refusal :=
  .next (s.std src (.getLog src effects off len) false none true (fun s =>
    let len := match src with | .i3c => min len 1024 | .head _ => len
    if !effects then s.answer src .invalidLog .none
    else if 4 * effectsLog.length < off + len then s.answer src .invalidInput .none
    else s.answer src .success (.effects ((effectsLog.drop (off / 4)).take (len / 4)))))

/-- IDENTIFY_MEMORY_DEVICE (R375): capacities in units of 256 MiB. -/
def execIdentifyMemoryDevice (src : Src) (s : State) : Host.Outcome State Fault Refusal :=
  .next (s.std src (.identifyMemoryDevice src) false none true (fun s =>
    s.answer src .success (.capacity s.granules s.granules 0 0 (2 * 2 ^ 20) 256 4096 64 true)))

/-- GET_PARTITION_INFO (R375). -/
def execGetPartitionInfo (src : Src) (s : State) : Host.Outcome State Fault Refusal :=
  .next (s.std src (.getPartitionInfo src) false none true (fun s => s.answer src .success (.partition s.granules 0 false)))

/-! ## Label storage area (R58) -/

/-- GET_LSA (R58): the area lies on the slice that the head's port attaches to (R222). -/
def execGetLsa (src : Src) (off len : Nat) (s : State) : Host.Outcome State Fault Refusal :=
  .next (s.std src (.getLsa src off len) false none true (fun s =>
    let lim := match src with | .i3c => 1024 | .head _ => 65536
    if s.stopped (srcHead src) then s.answer src .internalError .none
    else if 2 ^ 21 < off + len || lim < len then s.answer src .invalidInput .none
    else s.answer src .success (.bytes (Mem.readAll (s.head (srcHead src)).lsa off len))))

/-- SET_LSA (R58); its length is checked before its role (R365). -/
def execSetLsa (src : Src) (off : Nat) (data : List Byte) (s : State) : Host.Outcome State Fault Refusal :=
  .next (s.std src (.setLsa src off data) false (if 65536 < data.length then none else some 1) false (fun s =>
    match src with
    | .i3c => s
    | .head p =>
      if 65536 < data.length then s.answer src .invalidPayloadLength .none
      else if s.stopped p then s.answer src .internalError .none
      else if 2 ^ 21 < off + data.length then s.answer src .invalidInput .none
      else (s.updHead p (fun h => { h with lsa := Mem.writeAll h.lsa off data })).answer src .success .none))

/-! ## Health and alerts -/

/-- GET_HEALTH_INFO (R531, Table 11-6). -/
def execGetHealthInfo (src : Src) (s : State) : Host.Outcome State Fault Refusal :=
  .next (s.std src (.getHealthInfo src) false none true (fun s =>
    let e := s.health.errors
    s.answer src .success (.health s.replace s.degraded (s.health.causes.getLsbD 1) (min s.wearUsed 100) (wholeDeg s.hotSlice.2) s.shut.dirty.toNat
      (e[0]).toNat ((e[2]).toNat + (e[3]).toNat + (e[4]).toNat))))

/-- GET_ALERT_CONFIGURATION (R375). -/
def execGetAlertConfiguration (src : Src) (s : State) : Host.Outcome State Fault Refusal :=
  .next (s.std src (.getAlertConfiguration src) false none true (fun s => s.answer src .success (.alerts s.firm.alert)))

/-- SET_ALERT_CONFIGURATION (R375): one setting for the package. -/
def execSetAlertConfiguration (src : Src) (cfg : AlertCfg) (s : State) : Host.Outcome State Fault Refusal :=
  .next (s.std src (.setAlertConfiguration src cfg) false (some 1) false (fun s =>
    ({ s with firm := { s.firm with alert := cfg } }).answer src .success .none))

/-- GET_SHUTDOWN_STATE (R375). -/
def execGetShutdownState (src : Src) (s : State) : Host.Outcome State Fault Refusal :=
  .next (s.std src (.getShutdownState src) false none true (fun s => s.answer src .success (.shutdown s.shut.value)))

/-- SET_SHUTDOWN_STATE (R375): kept in the ledger; the Dirty Shutdown Count stays. -/
def execSetShutdownState (src : Src) (v : Byte) (s : State) : Host.Outcome State Fault Refusal :=
  .next (s.std src (.setShutdownState src v) false (some 1) false (fun s =>
    ({ s with led := { s.led with shut := s.led.shut.put { s.shut with value := v } } }).answer src .success .none))

/-! ## Poison (R52, R376) -/

/-- Owning slice of a line as its front store knows it. -/
def State.owner (s : State) (line : Nat) : Option SliceId := (s.ownerOf line).map fin8

/-- How a line the device knows to be poisoned came to be so (Table 11-6); none: not known to be poisoned. -/
def State.poisonOf (s : State) (line : Nat) : Option PoisonSrc :=
  match s.health.known.find? (fun e => e.1 = line), s.owner line with
  | some e, _ => some e.2
  | none, none => none
  | none, some k =>
    let f := (s.slice k).front
    if f.poison.contains line then some .internal
    else match f.look line with
      | .full x _ _ | .partly x _ _ => if x.poisoned then some .internal else none
      | .miss => match s.lineSource k line with
        | some (_, .poison) => some .media
        | _ => none

/-- Some line of a range of bytes is owned by a slice that is stopped (R373). -/
def State.rangeStopped (s : State) (base len : Nat) : Bool :=
  s.sliceIds.any s.stopped && (List.range (len / 64)).any (fun i => (s.owner (base / 64 + i)).any s.stopped)

/-- GET_POISON_LIST (R376, R373): known poisoned lines of a range of bytes, at most 4,096. -/
def execGetPoisonList (src : Src) (base len : Nat) (s : State) : Host.Outcome State Fault Refusal :=
  .next (s.std src (.getPoisonList src base len) false none true (fun s =>
    let lines := (List.range (len / 64)).map (fun i => base / 64 + i)
    let ok := match src with | .head p => lines.all (fun l => s.inAperture p false (l * 64)) | .i3c => false
    if base % 64 ≠ 0 || len % 64 ≠ 0 then s.answer src .invalidInput .none
    else if !ok then s.answer src .invalidPhysicalAddress .none
    else if s.rangeStopped base len then s.answer src .internalError .none
    else
      let l := lines.filterMap (fun l => (s.poisonOf l).map (fun x => (l * 64, x)))
      let excess := decide (4096 < l.length)
      s.answer src .success (.poison (l.take 4096) excess (if excess then s.timestamp else 0))))

/-- A poison command on one line: inside the write aperture, in a region that a write would reach (R376), its slice
running (R373). -/
def State.onPoisonLine (s : State) (src : Src) (dpa : Nat) (run : State → Port → SliceId → State) : State :=
  match src with
  | .i3c => s
  | .head p =>
    if dpa % 64 ≠ 0 then s.answer src .invalidInput .none
    else if !s.inAperture p true dpa then s.answer src .invalidPhysicalAddress .none
    else match s.regionAt dpa, s.owner (dpa / 64) with
      | some (_, d, _), some k =>
        if s.ingressCheck d p true ≠ 0 then s.answer src .invalidPhysicalAddress .none
        else if s.stopped k || !s.working k then s.answer src .internalError .none
        -- nowhere to commit it (DESIGN CHOICE; log entry 69)
        else if !s.roomFor k (dpa / 64) then s.answer src .busy .none
        else run s p k
      | _, _ => s.answer src .invalidPhysicalAddress .none

/-- Lines injected and not cleared. -/
def State.injected (s : State) : List Nat := (s.health.known.filter (fun e => e.2 == .injected)).map (·.1)

/-- INJECT_POISON (R52, R376): a write with poison, of data that the manual leaves open. -/
def execInjectPoison (src : Src) (dpa : Nat) (s : State) : Host.Outcome State Fault Refusal :=
  .next (s.std src (.injectPoison src dpa) false (some 1) false (fun s => s.onPoisonLine src dpa (fun s p k =>
    let line := dpa / 64
    if 64 ≤ s.injected.length && !s.injected.contains line then s.answer src .injectLimit .none
    else
      let (n, s) := s.draw
      let s := s.commitLine k (some p) line (BitVec.allOnes 64) (Config.freeValue n 512) true
      (s.notePoison line (some .injected)).grantCredits.answer src .success .none)))

/-- CLEAR_POISON (R52, R376): a full-line write of the data given, without poison. -/
def execClearPoison (src : Src) (dpa : Nat) (data : Line) (s : State) : Host.Outcome State Fault Refusal :=
  .next (s.std src (.clearPoison src dpa data) false (some 1) false (fun s => s.onPoisonLine src dpa (fun s p k =>
    (s.commitLine k (some p) (dpa / 64) (BitVec.allOnes 64) data false).grantCredits.answer src .success .none)))

/-! ## Scan Media -/

/-- GET_SCAN_MEDIA_CAPABILITIES (R375): an estimate that the manual leaves open. -/
def execGetScanMediaCapabilities (src : Src) (base len : Nat) (s : State) : Host.Outcome State Fault Refusal :=
  .next (s.std src (.getScanMediaCapabilities src base len) false none true (fun s =>
    if s.capacity < base + len then s.answer src .invalidPhysicalAddress .none
    else
      let (n, s) := s.draw
      s.answer src .success (.scanTime (Config.freeNat n))))

/-- SCAN_MEDIA (Table 11-6, R373): the mapped lines of a range of bytes are read in the background. -/
def execScanMedia (src : Src) (base len : Nat) (s : State) : Host.Outcome State Fault Refusal :=
  .next (s.std src (.scanMedia src base len) false (some 1) false (fun s =>
    match src with
    | .i3c => s
    | .head p =>
      if (s.head p).bg.isSome then s.answer src .busy .none
      else if base % 64 ≠ 0 || len % 64 ≠ 0 || len = 0 then s.answer src .invalidInput .none
      else if s.capacity < base + len then s.answer src .invalidPhysicalAddress .none
      else if s.rangeStopped base len then s.answer src .internalError .none
      else
        let s := s.updHead p (fun h => { h with scanResults := [] })
        (s.startBg p (.scan (base / 64) ((base + len) / 64) (base / 64)) 0x4304).scanOn p))

/-- GET_SCAN_MEDIA_RESULTS (R375). -/
def execGetScanMediaResults (src : Src) (s : State) : Host.Outcome State Fault Refusal :=
  .next (s.std src (.getScanMediaResults src) false none true (fun s =>
    s.answer src .success (.scanned (match src with | .head p => (s.head p).scanResults.map (· * 64) | .i3c => []))))

end Sys2Proof.Machine
end

