-- ==== Sys2Proof/Machine/Identity.lean ====
section
/-! DEFINITION. Vendor commands of identity and profiles (R382–R385, R489–R494). -/

namespace Sys2Proof.Machine

/-! ## IDENTIFY_EXT -/

/-- Descriptors with PIN set. -/
def State.pinned (s : State) : Nat := (s.desc.filter (fun e => e.2.pin)).length

/-- Device-held key slots. -/
def State.deviceKeys (s : State) : Nat := (s.keys.filter (fun e => e.2.dev && e.2.st == 1)).length

/-- Output of IDENTIFY_EXT (Table 12-3), from byte 8. -/
def State.identity (s : State) : List Byte :=
  let rev := ((s.firm.area s.firm.running).map imageRev).getD (leBytes 16 0)
  let absent := s.mediaRec.absent.foldl (fun n a => n ||| 2 ^ a.mc) 0
  leBytes 2 0x7A50 ++ leBytes 1 s.nSlices ++ leBytes 1 0xB0 ++ leBytes 1 (bitAt s.fused.gradeE 0) ++
    leBytes 1 (if s.rst.todo.contains 9 then 0 else s.dies) ++ leBytes 2 s.fused.l ++ leBytes 16 Config.eventUuid.toNat ++
    leBytes 8 s.capacity ++ leBytes 4 s.granules ++ leBytes 1 s.sliceOk ++ leBytes 3 0 ++
    leBytes 16 ((2 ^ (16 * s.nSlices) - 1) ^^^ (absent % 2 ^ (16 * s.nSlices))) ++ leBytes 8 s.fused.serial.toNat ++ rev ++
    leBytes 1 s.firm.running.val ++ leBytes 1 s.pinned ++ leBytes 2 s.deviceKeys ++ leBytes 4 0

/-- IDENTIFY_EXT (R382). -/
def execIdentifyExt (src : Src) (pl : List Byte) (s : State) : Host.Outcome State Fault Refusal :=
  .next (s.vendor src (.identifyExt src pl) pl { VSpec.plain 0xC000 4 none with sideband := true } (fun s => .ok s.identity s))

/-! ## Profiles -/

/-- Copies of a stored profile. -/
def State.profCopies (s : State) (p : Nat) : Copies (List Byte) := (s.led.prof[p]?).getD Copies.empty

/-- Which profile a PROFILE operand names: 0xFF is the one in force. -/
def State.profNamed (s : State) (n : Nat) : Option Nat := if n = 0xFF then some s.profNo.val else if n < 4 then some n else none

/-- PROFILE_GET (R383): wraps within the 16 KiB; the ROM profile where neither copy is valid. -/
def execProfileGet (src : Src) (pl : List Byte) (s : State) : Host.Outcome State Fault Refusal :=
  .next (s.vendor src (.profileGet src pl) pl (VSpec.plain 0xC001 14 none) (fun s =>
    let off := field pl 8 4
    let len := field pl 12 2
    match s.profNamed (field pl 4 1) with
    | none => .no 0x0205
    | some p =>
      if 16384 ≤ off || len = 0 || 1000 < len then .no 0x0205
      else
        let c := s.profCopies p
        let bs := c.cur.getD s.factoryProfile
        let valid := match c.a, c.b with | some _, some _ => 0 | none, none => 2 | _, _ => 1
        .ok (leBytes 1 p ++ leBytes 1 valid ++ leBytes 1 (bitAt (decide (p = s.profNo.val)) 0) ++ leBytes 1 0 ++ leBytes 4 ((c.curSeq.map BitVec.toNat).getD 0) ++
          leBytes 4 off ++ leBytes 2 len ++ leBytes 2 0 ++ (List.range len).map (fun i => bs.getD ((off + i) % 16384) 0)) s))

/-- One image entry applied as a REGION_MODIFY of the fields it selects (R491): the new state, and whether it was applied. -/
def State.imageEntry (s : State) (e : List Byte) : Bool × State :=
  let sel : BitVec 8 := BitVec.ofNat 8 (field e 2 1)
  let r := field e 0 2
  match SMap.get? s.desc r with
  | none => (false, s)
  | some d =>
    let pin := (field e 4 1) % 2 = 1
    if sel.getLsbD 7 && d.tag != BitVec.ofNat 64 (field e 8 8) then (false, s)
    else if sel.getLsbD 2 && pin && !d.pin && decide (24 ≤ s.pinned) then (false, s)
    else (true, s.modDesc r (fun d =>
      let d := if sel.getLsbD 0 then { d with rmask := BitVec.ofNat 8 (field e 5 1) &&& s.portMask, wmask := BitVec.ofNat 8 (field e 6 1) &&& s.portMask } else d
      let d := if sel.getLsbD 1 then { d with patient := decide (field e 3 1 / 4 % 2 = 1), readFill := decide (field e 3 1 / 128 % 2 = 1) } else d
      let d := if sel.getLsbD 2 then { d with pin := pin } else d
      if sel.getLsbD 3 then { d with wear := BitVec.ofNat 8 (field e 7 1) } else d))

/-- Apply the image of the profile in force, in entry order, with its record (R491). -/
def State.applyImage (s : State) : State :=
  let n := field s.prof 38 2
  let (done, s) := (List.range n).foldl (fun (acc : Nat × State) i =>
    let (k, s) := acc
    let (ok, s) := s.imageEntry (bytesAt s.prof (256 + 16 * i) 16)
    (if ok then k + 1 else k, s)) (0, s)
  s.vendorAll .informational 0x0804 0xFF 0xFF 0xFF 0 done (n - done)

/-- What a change of profile puts in force at once besides the parameters (R384): throttling from its thermal start, the
admission that its ceiling allows. -/
def State.profileEffects (s : State) : State :=
  let s := s.sliceIds.foldl (fun s k => if (s.slice k).samples.isEmpty then s
    else s.updSlice k (fun x => { x with pct := throttle (s.sliceTemp k) s.throttleStart })) s
  s.recomputeCeil

/-- Profile that the next package-warm reset selects (R493). -/
def State.nextProfile (s : State) : Nat := ((s.selRec.once.orElse fun _ => s.selRec.sticky).map Fin.val).getD s.rst.profileSel.toNat

/-- PROFILE_SELECT (R384, R487): ONCE, STICKY or clearing, and APPLY. -/
def execProfileSelect (src : Src) (pl : List Byte) (s : State) : Host.Outcome State Fault Refusal :=
  .next (s.vendor src (.profileSelect src pl) pl { VSpec.plain 0xC002 7 (some 1) with alone := true } (fun s =>
    let n := field pl 4 1
    let sticky := field pl 5 1 = 1
    let apply := field pl 6 1 % 2 = 1
    let clear := n = 0xFF
    if (3 < n && !clear) || 1 < field pl 5 1 then .no 0x0205
    else
      let p : Fin 4 := Fin.ofNat 4 n
      let bytes := s.led.prof[p].cur
      if !clear && bytes.isNone then .no 0x0502
      else if !clear && apply && !(s.profileManages (bytes.getD [])) then .no 0x0504
      else
        let stores := if clear then s.selRec.sticky.isSome else sticky
        if stores && s.storeRefused then .no 0x0501
        else
          let rec' : SelRec := if clear then ⟨none, none⟩ else if sticky then { s.selRec with sticky := some p } else { s.selRec with once := some p }
          let s := { s with led := { s.led with sel := s.led.sel.put rec' } }
          let s := if stores then s.store else s
          let s := if apply && !clear then
              let s := ((s.selectProfile p).useProfile false).profileEffects
              let mode := field s.prof 33 1 % 4
              if mode = 1 || mode = 2 then s.applyImage else s
            else s
          let excess := if rec'.once.isSome then 1 else if rec'.sticky.isSome then 2 else 0
          .ok (leBytes 1 s.profNo.val ++ leBytes 1 excess ++ leBytes 1 s.nextProfile ++ leBytes 1 0) s))

/-- The bits of byte i of a profile that hold a field; the others are reserved and stay zero (R12, Tables 15-6, 15-8). -/
def profileMask (i : Nat) : Byte :=
  if i = 32 then 0x07
  else if i = 33 then 0x03
  else if 40 ≤ i ∧ i < 48 then 0
  else if 48 ≤ i ∧ i < 64 then (if i % 2 = 0 then 0x1F else 0x9F)
  else if i = 78 ∨ i = 79 ∨ (90 ≤ i ∧ i < 256) then 0
  else if 256 ≤ i ∧ i % 16 = 2 then 0x8F
  else 0xFF

/-- Bytes written at an offset of a profile: what they give to reserved fields is ignored (R12). -/
def profileBytes (off : Nat) (bs : List Byte) : List Byte := bs.zipIdx.map (fun b => b.1 &&& profileMask (off + b.2))

/-- The staged image with the header that FINAL gives it (R489). -/
def profileHeader (p : Nat) (seq : Nat) (im : List Byte) : List Byte :=
  let hd := fun (crc : Nat) => leBytes 1 (0x10 + p) ++ leBytes 1 1 ++ leBytes 2 16384 ++ leBytes 4 seq ++ leBytes 4 0 ++ leBytes 4 crc
  let body := im.drop 16
  hd (crc32c (hd 0 ++ body)) ++ body

/-- PROFILE_WRITE (R385, R487, R489, R492). -/
def execProfileWrite (src : Src) (pl : List Byte) (s : State) : Host.Outcome State Fault Refusal :=
  .next (s.vendor src (.profileWrite src pl) pl { VSpec.plain 0xC003 (16 + field pl 12 2) (some 1) with alone := true } (fun s =>
    let n := field pl 4 1
    let final := field pl 5 1 % 2 = 1
    let off := field pl 8 4
    let len := field pl 12 2
    if 3 < n || 16384 < off + len then .no 0x0205
    else if off ≠ 0 && off ≠ s.firm.staged.length then .no 0x0503
    else
      let staged := (if off = 0 then [] else s.firm.staged) ++ profileBytes off (bytesAt pl 16 len)
      if !final then .ok (leBytes 4 staged.length) { s with firm := { s.firm with staged := staged } }
      else if staged.length < 16384 then .no 0x0503
      else
        let p : Fin 4 := Fin.ofNat 4 n
        let c := s.led.prof[p]
        let seq := ((c.curSeq.map BitVec.toNat).getD 0 + 1) % 2 ^ 32
        let im := profileHeader n seq staged
        if !s.profileOk im then .no 0x0502
        else if !s.profileManages im then .no 0x0504
        else if s.storeRefused then .no 0x0501
        else
          let s := { s with firm := { s.firm with staged := im }, led := { s.led with prof := s.led.prof.set p (c.put im) } }
          .ok (leBytes 4 staged.length) s.store))

end Sys2Proof.Machine
end

