-- ==== Sys2Proof/Machine/RegionCmds.lean ====
section
/-! DEFINITION. Region and aperture commands, discards and the write-group fence (R85–R95, R99, R248, R249, R325, R329,
R349, R386–R394, R482). -/

namespace Sys2Proof.Machine

/-! ## Space (R95, R325, R329) -/

/-- Slices that a region uses. -/
def State.usedSlices (s : State) (d : Desc) : List SliceId := if d.spread then s.sliceIds else [Fin.ofNat 8 d.localSlice.toNat]

/-- Runs of placement units in use on a slice: start and length. -/
def State.unitRuns (s : State) (k : SliceId) : List (Nat × Nat) :=
  s.index.filterMap (fun e => match SMap.get? s.desc e.2.region with
    | some d => if d.uses k then some (e.2.unitBase, s.unitsPer d.spread) else none
    | none => none) ++
  s.desc.filterMap (fun e => (e.2.tree.find? (fun t => t.1 = k.val)).map (fun t => (t.2.2.1, t.2.2.2))) ++
  (match (s.slice k).tree.top with | some t => [(t, ceilDiv 80 (max 1 s.dies))] | none => [])

/-- Lowest start, a multiple of `align`, of `len` free places below `limit` past the runs in use. -/
def lowestFit (used : List (Nat × Nat)) (len limit align : Nat) : Option Nat :=
  let starts := (0 :: used.map (fun u => (u.1 + u.2 + align - 1) / align * align)).filter (fun b =>
    decide (b + len ≤ limit) && used.all (fun u => decide (b + len ≤ u.1 ∨ u.1 + u.2 ≤ b)))
  match starts with
  | [] => none
  | b :: bs => some (bs.foldl min b)

/-- Unit bases of `count` granules, one after another, past the runs in use (R95). -/
def placeGranules (used : List (Nat × Nat)) (len limit count : Nat) : Option (List Nat) :=
  (List.range count).foldl (fun (acc : Option (List (Nat × Nat) × List Nat)) _ => match acc with
    | none => none
    | some (used, bases) => (lowestFit used len limit 1).map (fun b => ((b, len) :: used, bases ++ [b]))) (some (used, [])) |>.map (·.2)

/-- Tree placement of a Sealed region on one slice (R325, R329): seal base, tree unit base, tree units, and a new tree top. -/
def State.placeTree (s : State) (k : SliceId) (d : Desc) (granules : List (Nat × Nat)) : Option (Nat × Nat × Nat × Option Nat) :=
  let dd := max 1 s.dies
  let n := s.dataUnits d
  let limit := 1024 * s.fused.l
  let t := ceilDiv n 32
  match lowestFit (s.slice k).tree.seals (n * 256 * dd) (2 ^ 26) 4096, lowestFit (s.unitRuns k ++ granules) t limit 1 with
  | some base, some unit =>
    if (s.slice k).tree.top.isSome then some (base, unit, t, none)
    else (lowestFit (s.unitRuns k ++ granules ++ [(unit, t)]) (ceilDiv 80 dd) limit 1).map (fun top => (base, unit, t, some top))
  | _, _ => none

/-- The Sealed limit (R325): on every slice the region uses its groups find room among 2²⁶. -/
def State.sealFits (s : State) (d : Desc) : Bool :=
  (s.usedSlices d).all (fun k => (lowestFit (s.slice k).tree.seals (s.dataUnits d * 256 * max 1 s.dies) (2 ^ 26) 4096).isSome)

/-- Lowest run of `count` granules below the capacity that are unmapped (Table 03-6). -/
def State.freeGranules (s : State) (count : Nat) : Option Nat := lowestFit (s.index.map (fun e => (e.1, 1))) count s.granules 1

/-! ## REGION_CREATE -/

/-- Descriptor that a REGION_CREATE input asks for. -/
def createDesc (pl : List Byte) (st : RegState) (base : Nat) (now : BitVec 64) : Desc :=
  let b := field pl 6 1
  { st := st
    back := st
    mode := if b % 4 = 0 then .clear else if b % 4 = 1 then .cipher else .sealed
    patient := decide (b / 4 % 2 = 1)
    spread := decide (b / 8 % 2 = 0)
    localSlice := BitVec.ofNat 3 (b / 16)
    readFill := decide (b / 128 % 2 = 1)
    pin := decide (field pl 7 1 % 2 = 1)
    cause := 0
    keyId := field pl 8 2
    newKey := 0
    rmask := BitVec.ofNat 8 (field pl 10 1)
    wmask := BitVec.ofNat 8 (field pl 11 1)
    wear := BitVec.ofNat 8 (field pl 12 1)
    base := base
    count := field pl 20 4
    rekeyPtr := 0
    gen := 1
    beat := now
    tag := BitVec.ofNat 64 (field pl 24 8)
    tree := [] }

/-- The first test of R386 that a REGION_CREATE fails, 0 when none does. -/
def State.createTest (s : State) (pl : List Byte) : Nat :=
  let r := field pl 4 2
  let d := createDesc pl .active (field pl 16 4) s.beat.now
  let modeBits := field pl 6 1 % 4
  let absentPort := (d.rmask ||| d.wmask) &&& ~~~s.portMask != 0
  if (16383 < r && r ≠ 0xFFFF) || modeBits = 3 || (!d.spread && decide (s.nSlices ≤ d.localSlice.toNat)) || (d.spread && d.localSlice != 0) || absentPort ||
      (modeBits = 0 && d.keyId ≠ 0) || (modeBits ≠ 0 && d.keyId = 0) || d.count = 0 || 196608 < d.count then 0x0205
  else if 2047 < d.keyId then 0x0301
  else if r ≠ 0xFFFF && (SMap.get? s.desc r).isSome then 0x0209
  else if r = 0xFFFF && decide (16384 ≤ s.desc.length) then 0x0207
  else if modeBits = 0 && !s.clearPermitted then 0x0208
  else
    let slot := if modeBits = 0 then 1 else ((SMap.get? s.keys d.keyId).map (·.st)).getD 0
    let base := if d.base = 0xFFFFFFFF then s.freeGranules d.count else if s.granules < d.base + d.count then none
      else if s.index.any (fun e => decide (d.base ≤ e.1 ∧ e.1 < d.base + d.count)) then none else some d.base
    if slot = 3 then 0x0304
    else if slot = 0 then 0x0307
    else if d.pin && decide (24 ≤ s.pinned) then 0x0204
    else match base with
      | none => 0x0202
      | some _ => if modeBits = 2 && !s.sealFits d then 0x0309 else 0

/-- Carry out a REGION_CREATE that passed tests 1–7: none when no placement is found (test 8). -/
def State.create (s : State) (pl : List Byte) : Option (Nat × Nat × State) :=
  let r := if field pl 4 2 = 0xFFFF then ((List.range 16384).find? (fun n => (SMap.get? s.desc n).isNone)).getD 0 else field pl 4 2
  let base := if field pl 16 4 = 0xFFFFFFFF then (s.freeGranules (field pl 20 4)).getD 0 else field pl 16 4
  let slot := ((SMap.get? s.keys (field pl 8 2)).map (·.st)).getD 1
  let d := createDesc pl (if slot = 2 then .locked else .active) base s.beat.now
  let ks := s.usedSlices d
  match placeGranules (ks.flatMap s.unitRuns) (s.unitsPer d.spread) (1024 * s.fused.l) d.count with
  | none => none
  | some bases =>
    let runs := bases.map (fun b => (b, s.unitsPer d.spread))
    let trees : Option (List (SliceId × Nat × Nat × Nat × Option Nat)) := if d.mode != .sealed then some []
      else ks.foldl (fun (acc : Option (List (SliceId × Nat × Nat × Nat × Option Nat))) k => match acc, s.placeTree k d runs with
        | some l, some (b, u, t, top) => some (l ++ [(k, b, u, t, top)])
        | _, _ => none) (some [])
    trees.map (fun ts =>
      let size := s.dataUnits d * 256 * max 1 s.dies
      let s := ts.foldl (fun (s : State) t => s.updSlice t.1 (fun x => { x with tree := { x.tree with
        seals := x.tree.seals ++ [(t.2.1, size)]
        top := match t.2.2.2.2 with | some n => some n | none => x.tree.top } })) s
      let d := { d with tree := ts.map (fun (t : SliceId × Nat × Nat × Nat × Option Nat) => (t.1.val, t.2.1, t.2.2.1, t.2.2.2.1)) }
      let s := { s with index := (bases.zip (List.range d.count)).foldl (fun (m : SMap IndexEntry) (b : Nat × Nat) => SMap.put m (base + b.2) ⟨r, b.1⟩) s.index }
      (r, base, s.applyDesc r (some d)))

/-- REGION_CREATE (R386). -/
def execRegionCreate (src : Src) (pl : List Byte) (s : State) : Host.Outcome State Fault Refusal :=
  .next (s.vendor src (.regionCreate src pl) pl
    { VSpec.plain 0xC010 32 (some 1) with clash := fun s => if s.discards.any (fun d => d.region = field pl 4 2 && d.destroy) then some 0 else none }
    (fun s => match s.createTest pl with
      | 0 => match s.create pl with
        | none => .no 0x0203
        | some (r, base, s) =>
          let st := match SMap.get? s.desc r with | some d => if d.st == .locked then 2 else 1 | none => 1
          .ok (leBytes 2 r ++ leBytes 1 st ++ leBytes 1 0 ++ leBytes 4 base ++ leBytes 4 1 ++ leBytes 4 0) s
      | e => .no e))

/-! ## REGION_MODIFY, REGION_QUERY and APERTURE_SET -/

/-- Check 6 for a region command (R91, Table 11-4): 0x0206 while Discarding or Rekeying, Busy while a discard of a range or a
REINIT runs on it. -/
def State.regionClash (s : State) (r : Nat) : Option Nat :=
  match SMap.get? s.desc r with
  | none => none
  | some d => if d.st == .discarding || d.st == .rekeying then some 0x0206 else if s.discards.any (fun x => x.region = r) then some 0 else none

/-- REGION_MODIFY (R85, R387). Where several refusals apply, a mask that names an absent port comes first, then EXPECT_GENERATION, then PIN (DESIGN CHOICE:
the tables give no order; log entry 29). -/
def execRegionModify (src : Src) (pl : List Byte) (s : State) : Host.Outcome State Fault Refusal :=
  .next (s.vendor src (.regionModify src pl) pl { VSpec.plain 0xC011 24 (some 1) with clash := fun s => s.regionClash (field pl 4 2) } (fun s =>
    let r := field pl 4 2
    let sel : BitVec 8 := BitVec.ofNat 8 (field pl 6 1)
    let rm : BitVec 8 := BitVec.ofNat 8 (field pl 9 1)
    let wm : BitVec 8 := BitVec.ofNat 8 (field pl 10 1)
    let expect := field pl 12 4
    let pin := decide (field pl 8 1 % 2 = 1)
    if 16383 < r then .no 0x0205
    else match SMap.get? s.desc r with
      | none => .no 0x0201
      | some d =>
        if (sel.getLsbD 3 && rm &&& ~~~s.portMask != 0) || (sel.getLsbD 4 && wm &&& ~~~s.portMask != 0) then .no 0x0205
        else if expect ≠ 0 && expect ≠ d.gen.toNat then .no 0x020A
        else if sel.getLsbD 2 && pin && !d.pin && decide (24 ≤ s.pinned) then .no 0x0204
        else
          let s := s.modDesc r (fun d => { d with
            patient := if sel.getLsbD 0 then decide (field pl 7 1 / 4 % 2 = 1) else d.patient
            readFill := if sel.getLsbD 1 then decide (field pl 7 1 / 128 % 2 = 1) else d.readFill
            pin := if sel.getLsbD 2 then pin else d.pin
            rmask := if sel.getLsbD 3 then rm else d.rmask
            wmask := if sel.getLsbD 4 then wm else d.wmask
            wear := if sel.getLsbD 5 then BitVec.ofNat 8 (field pl 11 1) else d.wear
            tag := if sel.getLsbD 6 then BitVec.ofNat 64 (field pl 16 8) else d.tag })
          .ok (leBytes 4 (d.gen.toNat + 1)) s))

/-- REGION_QUERY (R390). -/
def execRegionQuery (src : Src) (pl : List Byte) (s : State) : Host.Outcome State Fault Refusal :=
  .next (s.vendor src (.regionQuery src pl) pl (VSpec.plain 0xC014 12 none) (fun s =>
    let r := field pl 4 2
    let g := field pl 8 4
    if r = 0xFFFF then
      if s.granules ≤ g then .no 0x020B
      else match SMap.get? s.index g with
        | none => .no 0x0201
        | some e => .ok (descBytes e.region (SMap.get? s.desc e.region)) s
    else if 16383 < r then .no 0x0205
    else .ok (descBytes r (SMap.get? s.desc r)) s))

/-- Entries of an APERTURE_SET: region, READ, WRITE. -/
def apertureEntries (pl : List Byte) : List (Nat × Bool × Bool) :=
  (List.range (field pl 6 2)).map (fun i => (field pl (8 + 4 * i) 2, decide (field pl (10 + 4 * i) 1 % 2 = 1), decide (field pl (10 + 4 * i) 1 / 2 % 2 = 1)))

/-- APERTURE_SET (R94, R391): the regions named take the bits given, every other region has both cleared. A bad port or a region named twice is answered before
a Free region (DESIGN CHOICE: R99 orders neither; log entry 29). -/
def execApertureSet (src : Src) (pl : List Byte) (s : State) : Host.Outcome State Fault Refusal :=
  .next (s.vendor src (.apertureSet src pl) pl (VSpec.plain 0xC015 (8 + 4 * field pl 6 2) (some 1)) (fun s =>
    let p := field pl 4 1
    let es := apertureEntries pl
    let rs := es.map (·.1)
    if s.nSlices ≤ p || rs.any (fun r => decide (16383 < r)) || rs.eraseDups.length ≠ rs.length then .no 0x0205
    else if rs.any (fun r => (SMap.get? s.desc r).isNone) then .no 0x0201
    else
      let (n, s) := s.desc.foldl (fun (acc : Nat × State) e =>
        let (n, s) := acc
        let (rd, wr) := match es.find? (fun x => x.1 = e.1) with | some x => x.2 | none => (false, false)
        if e.2.rmask.getLsbD p = rd && e.2.wmask.getLsbD p = wr then acc
        else (n + 1, s.modDesc e.1 (fun d => { d with rmask := setBit d.rmask p rd, wmask := setBit d.wmask p wr }))) (0, s)
      .ok (leBytes 4 n) s))

/-! ## REGION_DESTROY (R92, R388) -/

/-- REGION_DESTROY (R388): the region becomes Discarding and its contents are dropped in the background. -/
def execRegionDestroy (src : Src) (pl : List Byte) (s : State) : Host.Outcome State Fault Refusal :=
  .next (s.vendor src (.regionDestroy src pl) pl { VSpec.plain 0xC012 12 (some 1) with bg := true, clash := fun s => s.regionClash (field pl 4 2) } (fun s =>
    let r := field pl 4 2
    let expect := field pl 8 4
    if 16383 < r then .no 0x0205
    else match SMap.get? s.desc r with
      | none => .no 0x0201
      | some d =>
        if expect ≠ 0 && expect ≠ d.gen.toNat then .no 0x020A
        else
          let s := s.modDesc r (fun d => { d with st := .discarding, back := d.st })
          .bg (.destroy r) { s with discards := s.discards ++ [⟨r, true, true, 0, d.count * 2 ^ 28, [], none⟩] }))

/-- Region that holds a line, data or tree. -/
def State.lineRegion (s : State) (line : Nat) : Option Nat :=
  match treeOf line with
  | some (k, level, idx) => if 2 ≤ level then none else (s.sealRegion k (if level = 0 then idx else idx * 8)).map (·.1)
  | none => (s.regionAt (line * 64)).map (·.1)

/-- Region that holds a page of a slice. -/
def State.pageRegion (s : State) (k : SliceId) (pk : Nat) : Option Nat := (s.lineOfPage k pk 0).bind s.lineRegion

/-- Logical blocks of a slice that hold something of the medium: mapped or LOST ones, and those with overlay entries. -/
def Media.blocksHeld (m : Media) : List Nat :=
  let excess := m.lostOver.flatMap (fun r => (maskList r.2.2).flatMap (fun c => (List.range 128).flatMap (fun db =>
    ((List.range r.2.1).drop r.1).map (fun b => c * 2 ^ 17 + db * 2 ^ 10 + b))))
  (((m.bmap.filter (fun (e : Nat × MapEntry) => e.2.st != .unmapped)).map (·.1)) ++ (m.overlay.map (fun (e : Nat × OvEntry) => e.1 / 1024)) ++ excess).eraseDups

/-- Pages of a logical block that hold something. -/
def Media.pagesHeld (m : Media) (key : Nat) : List Nat :=
  if (m.entry key).st == .unmapped then (m.entriesOf key).map (·.1) else (List.range 1024).map (fun i => key * 1024 + i)

/-- The pages of a region on a slice whose ZERO entry finds its set full (R248). -/
def State.zeroBlocked (s : State) (k : SliceId) (r : Nat) : List Nat :=
  let m := (s.slice k).media
  m.blocksHeld.flatMap (fun key =>
    let mine := (m.pagesHeld key).filter (fun pk => s.pageRegion k pk == some r)
    if (m.pagesHeld key).all (fun pk => s.pageRegion k pk == some r || (s.lineOfPage k pk 0).isNone) then [] else mine.filter (fun pk => !m.ovRoom pk))

/-- A page goes with a region that is destroyed, in the region table `own` that still names the region: it holds the region's data or tree lines, or with
the slice's last Sealed region its pinned nodes' homes (R329). -/
def State.goesWith (own : State) (k : SliceId) (r : Nat) (last : Bool) (line : Nat) : Bool :=
  match treeOf line with
  | some (k', level, _) => if 2 ≤ level then last && k' == k.val else own.lineRegion line == some r
  | none => own.lineRegion line == some r

/-- Region r is the last Sealed region that a slice holds (R329). -/
def State.lastSealed (s : State) (k : SliceId) (r : Nat) : Bool := !s.desc.any (fun e => e.1 != r && e.2.tree.any (fun t => t.1 = k.val))

/-- Drop a region's contents on one slice (R92): its front-store lines, its overlay entries and mappings; a logical block that it
shares with another region or with the tree top keeps the others' pages. `own` is the region table that names the region; `s` says what is in use beside it. -/
def State.dropRegion (s own : State) (k : SliceId) (r : Nat) : State :=
  let m := (s.slice k).media
  let last := s.lastSealed k r
  let goes := fun pk => match own.lineOfPage k pk 0 with | some l => own.goesWith k r last l | none => false
  let pages := m.blocksHeld.map (fun key =>
    let held := m.pagesHeld key
    (key, held.filter goes, held.all (fun pk => goes pk || (s.lineOfPage k pk 0).isNone)))
  let s := s.evict k (own.goesWith k r last)
  pages.foldl (fun s x =>
    if x.2.1.isEmpty then s
    else if x.2.2 then s.unmapBlock k x.1
    else s.updMedia k (fun m => x.2.1.foldl (fun (m : Media) pk => m.zeroPage s.beat.events pk) m)) s

/-- Release a destroyed region's seal space. -/
def State.releaseSeals (s : State) (k : SliceId) (d : Desc) : State :=
  match d.tree.find? (fun t => t.1 = k.val) with
  | none => s
  | some (_, base, _, _) => s.updSlice k (fun x => { x with tree := { x.tree with seals := x.tree.seals.filter (fun t => t.1 != base) } })

/-- A slice without a Sealed region has no tree top (R329), and nothing that its tree protects: the tree starts afresh. -/
def State.releaseTop (s : State) (k : SliceId) : State :=
  if s.desc.any (fun e => e.2.tree.any (fun t => t.1 = k.val)) then s
  else s.updSlice k (fun x => { x with tree := { x.tree with top := none, root := Vector.replicate 8 0, pinned := [], dirty := [], unver := [] } })

/-- REGION_DESTROY_COMPLETE (R92): once every slice that is not lost has dropped the region, its granules are unmapped, its units,
tree units and seal space are free, and its descriptor becomes Free. -/
def execRegionDestroyComplete (r : Nat) (s : State) : Host.Outcome State Fault Refusal :=
  .next (match s.discards.find? (fun x => x.region = r && x.destroy), SMap.get? s.desc r with
    | some _, some d =>
      let ks := s.liveSlices
      if ks.any (fun k => (s.slice k).st != .working) || s.rst.mgmtDown || s.power.flush != .idle then s
      else
        let full := ks.flatMap (fun k => (s.zeroBlocked k r).map (fun pk => (k, pk)))
        if !full.isEmpty then full.foldl (fun s e => s.updMedia e.1 (·.makeRoom e.2)) s
        else
          let s := ks.foldl (fun s k => s.dropRegion s k r) s
          let s := s.sliceIds.foldl (fun s k => s.releaseSeals k d) s
          let s := { s with index := s.index.filter (fun e => e.2.region != r), discards := s.discards.filter (fun x => x.region != r) }
          let s := s.applyDesc r none
          -- a lost slice keeps its tree top until it returns and drops the region's pages
          let s := (ks.foldl (fun s k => s.releaseTop k) s).grantCredits
          match s.bgOf (fun b => b == .destroy r) with
          | some p => s.endVendor p .success 0 (leBytes 2 r ++ leBytes 2 0)
          | none => s
    | _, _ => s)

/-! ## REGION_DISCARD (R248, R249, R389) -/

/-- REGION_DISCARD (R389): of the whole region, or of a range. -/
def execRegionDiscard (src : Src) (pl : List Byte) (s : State) : Host.Outcome State Fault Refusal :=
  .next (s.vendor src (.regionDiscard src pl) pl { VSpec.plain 0xC013 24 (some 1) with bg := true, clash := fun s => s.regionClash (field pl 4 2) } (fun s =>
    let r := field pl 4 2
    let whole := decide (field pl 6 1 % 2 = 1)
    let off := field pl 8 8
    let len := field pl 16 8
    if 16383 < r then .no 0x0205
    else match SMap.get? s.desc r with
      | none => .no 0x0201
      | some d =>
        if !(d.st == .active || (whole && d.st == .locked)) then .no 0x0206
        else if whole then
          let s := s.modDesc r (fun d => { d with st := .discarding, back := d.st })
          .bg (.discard r) { s with discards := s.discards ++ [⟨r, false, true, 0, d.count * 2 ^ 28, [], none⟩] }
        else if off % 64 ≠ 0 || len % 64 ≠ 0 || len = 0 || d.count * 2 ^ 28 < off + len then .no 0x020B
        else .bg (.discard r) { s with discards := s.discards ++ [⟨r, false, false, off, off + len, [], none⟩] }))

/-- Groups that a discard covers, whole or in part. -/
def Discard.groups (x : Discard) (d : Desc) : List Nat :=
  (List.range (ceilDiv x.hi 4096)).drop (x.lo / 4096) |>.map (fun g => d.base * 65536 + g)

/-- Note groups of a region's discard as handled. -/
def State.handled (s : State) (r : Nat) (gs : List Nat) : State :=
  { s with discards := s.discards.map (fun x => if x.region = r then { x with handled := gs ++ x.handled.filter (fun g => !gs.contains g) } else x) }

/-- Step 2 of REINIT for one group of a Sealed region (R349): its leaf and its entry of the leaf-parent become zero. False while
the leaf-parent has to be fetched. -/
def State.zeroVersion (s : State) (k : SliceId) (x : Discard) (group : Nat) : Bool × State :=
  match s.lineSeal (group * 64) with
  | none => (true, s)
  | some i =>
    match s.nodeLine k 1 (i / 8) with
    | some par => (true, (s.putNode k 1 (i / 8) (setEntry par (i % 8) 0)).putNode k 0 i 0)
    | none =>
      -- the leaf-parent's other groups: all in the range and none handled yet, so it is zero as a whole
      match SMap.get? s.desc x.region with
      | none => (true, s)
      | some d =>
        let mates := (x.groups d).filter (fun g => match s.lineSeal (g * 64), s.ownerOf (g * 64) with
          | some n, some o => decide (n / 8 = i / 8 ∧ o = k.val)
          | _, _ => false)
        if mates.length = 8 && !mates.any (fun g => x.handled.contains g) then
          let s' := s.putNode k 1 (i / 8) 0
          if s.roomFor k (treeLine k.val 1 (i / 8)) && s'.roomFor k (treeLine k.val 0 i) then (true, s'.putNode k 0 i 0) else (false, s)
        else (false, s.fetchNode k 1 (i / 8))

/-- Every group whose page lies in a logical block, when all 1,024 of them lie in a discard (R248). -/
def State.wholeBlock (s : State) (x : Discard) (d : Desc) (k : SliceId) (key : Nat) : Option (List Nat) :=
  let gs := (List.range 1024).map (fun i => (s.groupDpa (placeOf k.val (key * 1024 + i))).map (· / 4096))
  let lo := d.base * 2 ^ 28 + x.lo
  let hi := d.base * 2 ^ 28 + x.hi
  if gs.all (fun g => match g with | some g => decide (lo ≤ g * 4096 ∧ g * 4096 + 4096 ≤ hi) | none => false) then some (gs.filterMap id) else none

/-- DISCARD_PAGE (R248): the owning slice handles one group of a discard. -/
def execDiscardPage (r group : Nat) (s : State) : Host.Outcome State Fault Refusal :=
  .next (match s.discards.find? (fun x => x.region = r && !x.destroy), SMap.get? s.desc r, s.regionAt (group * 4096) with
    | some x, some d, some (r', _, u) =>
      let k : SliceId := fin8 (s.prism d u (group * 4096)).slice
      let base := d.base * 2 ^ 28
      if r' ≠ r || !(x.groups d).contains group || x.handled.contains group || (s.slice k).st != .working || s.rst.mgmtDown || s.power.flush != .idle then s
      else
        let mine := (List.range 64).filter (fun i => decide (base + x.lo ≤ group * 4096 + i * 64 ∧ group * 4096 + i * 64 < base + x.hi))
        let home := s.groupHome d u (group * 4096)
        if mine.length < 64 then
          if home = .nowhere then s.handled r [group]
          else if decide (2048 - 64 < (s.slice k).front.spill.length) || mine.any (fun i => !(s.slice k).front.spillRoom (group * 64 + i)) then s
          else (mine.foldl (fun s i => s.commitLine k none (group * 64 + i) (BitVec.allOnes 64) 0 false) s |>.handled r [group]).grantCredits
        else
          let (ok, s) := if x.reinit.isSome then s.zeroVersion k x group else (true, s)
          if !ok then s
          else match home with
          | .nowhere | .dead _ => ((s.evict k (fun l => l / 64 = group)).handled r [group]).grantCredits
          | .at p =>
            if ((s.slice k).media.entry p.key).st == .dead then ((s.evict k (fun l => l / 64 = group)).handled r [group]).grantCredits
            else match (if x.reinit.isSome then none else s.wholeBlock x d k p.key) with
              | some gs => (((s.evict k (fun l => gs.contains (l / 64))).unmapBlock k p.key).handled r gs).grantCredits
              | none =>
                if !(s.slice k).media.ovRoom p.pageKey then s.updMedia k (·.makeRoom p.pageKey)
                else
                  let s := s.evict k (fun l => l / 64 = group)
                  ((s.updMedia k (fun m => m.zeroPage s.beat.events p.pageKey)).handled r [group]).grantCredits
    | _, _, _ => s)

/-- An unverifiable node lies over some group of a region's range on a slice (R352). -/
def State.unverIn (s : State) (k : SliceId) (d : Desc) (lo hi : Nat) (n : Nat × Nat) : Bool :=
  match d.tree.find? (fun t => t.1 = k.val) with
  | none => false
  | some _ =>
    ((List.range (ceilDiv hi 4096)).drop (lo / 4096)).any (fun g =>
      match s.lineSeal ((d.base * 65536 + g) * 64), s.ownerOf ((d.base * 65536 + g) * 64) with
      | some i, some o => decide (o = k.val ∧ i / 8 ^ n.1 = n.2)
      | _, _ => false)

/-- DISCARD_COMPLETE (R249, R349): every group of the range on slices that are not lost has been handled. A whole region returns
to its state; REINIT clears the range's unverifiable entries and starts the rekey. -/
def execDiscardComplete (r : Nat) (s : State) : Host.Outcome State Fault Refusal :=
  .next (match s.discards.find? (fun x => x.region = r && !x.destroy), SMap.get? s.desc r with
    | some x, some d =>
      let left := (x.groups d).filter (fun g => !x.handled.contains g && (match s.ownerOf (g * 64) with
        | some o => (s.slice (fin8 o)).st != .lost
        | none => false))
      if !left.isEmpty || s.rst.mgmtDown || s.power.flush != .idle then s
      else
        let s := { s with discards := s.discards.filter (fun y => y.region != r) }
        match x.reinit with
        | some slot =>
          let s := s.sliceIds.foldl (fun s k =>
            let gone := (s.slice k).tree.unver.filter (s.unverIn k d x.lo x.hi)
            s.updSlice k (fun y => { y with tree := { y.tree with
              unver := y.tree.unver.filter (fun n => !gone.contains n)
              rootLost := y.tree.rootLost && s.desc.any (fun e => e.1 != r && e.2.mode == .sealed && e.2.st == .unavailable && e.2.uses k) } })) s
          let s := (s.putOps (fun o => if o.rekeys.length < 48 then { o with rekeys := o.rekeys ++ [⟨r, d.keyId, slot, 0⟩] } else o)).store
          (s.modDesc r (fun d => { d with st := .rekeying, newKey := slot, rekeyPtr := 0 })).loadChunk r
        | none =>
          let s := if x.whole then s.modDesc r (fun d => { d with st := d.back }) else s
          match s.bgOf (fun b => b == .discard r) with
          | some p => s.endVendor p .success 0 []
          | none => s
    | _, _ => s)

/-! ## The write-group fence (R392–R394, R482) -/

/-- DPA and data pairs of a fence's input. -/
def groupLines (pl : List Byte) : List (Nat × Line) :=
  (List.range (field pl 4 2)).map (fun i => (field pl (8 + 72 * i) 8, BitVec.ofNat 512 (leVal (bytesAt pl (16 + 72 * i) 64))))

/-- WRITE_GROUP_FENCE (R392): checked, then it waits until the writes accepted before it have committed. -/
def execWriteGroupFence (src : Src) (pl : List Byte) (s : State) : Host.Outcome State Fault Refusal :=
  .next (s.vendor src (.writeGroupFence src pl) pl
    { VSpec.plain 0xC016 (8 + 72 * field pl 4 2) (some 0) with
      clash := fun s => if field pl 4 2 ≠ 0 && (s.groupRec.isSome || s.firm.fences.any (fun f => !f.1.lines.isEmpty)) then some 0 else none }
    (fun s =>
      match src with
      | .i3c => .no 0x0101
      | .head p =>
        let ls := groupLines pl
        let dpas := ls.map (·.1)
        if 64 < field pl 4 2 then .no 0x020B
        else if dpas.any (fun a => decide (a % 64 ≠ 0)) || dpas.eraseDups.length ≠ dpas.length then .no 0x020B
        else if !dpas.all (fun a => s.inAperture p true a && (match s.regionAt a with | some (_, d, _) => d.st == .active || d.st == .rekeying | none => false)) then .no 0x020C
        else if dpas.any (fun a => match s.ownerOf (a / 64) with | some o => s.stopped (fin8 o) | none => false) then .no 0x0402
        else
          let tag : BitVec 16 := BitVec.ofNat 16 (field pl 0 2)
          let dg : BitVec 64 := if tag = 0 then 0 else digestOf 0xC016 pl
          .later { s with firm := { s.firm with fences := s.firm.fences ++ [(⟨0, p, tag, dg, ls⟩, s.nextId)] } }))

/-- A write that a port had accepted before request number n has not committed. -/
def State.writesBefore (s : State) (p : Port) (n : Nat) : Bool :=
  s.slices.toList.any (fun x => x.waiting.any (fun r => r.write && r.port == p && decide (r.id < n)) ||
    x.heldReqs.any (fun h => h.req.write && h.req.port == p && decide (h.req.id < n)))

/-- The owning slice of a line is rebuilding, or its own reset runs: its writes wait. -/
def State.ownerWaits (s : State) (dpa : Nat) : Bool :=
  match s.ownerOf (dpa / 64) with
  | some o => let st := (s.slice (fin8 o)).st; st == .resetting || st == .rebuilding
  | none => false

/-- Step 4 of a fence: every line is committed as a full-line write without poison. Answers the lines left over: their slice waits, or its front store has no
room for them (DESIGN CHOICE; log entry 69). A lost slice takes none. -/
def State.commitGroup (s : State) (p : Port) (ls : List (Nat × Line)) : List (Nat × Line) × State :=
  ls.foldl (fun (acc : List (Nat × Line) × State) l => match acc.2.ownerOf (l.1 / 64) with
    | some o =>
      if (acc.2.slice (fin8 o)).st == .lost then acc
      else if acc.2.ownerWaits l.1 || !acc.2.roomFor (fin8 o) (l.1 / 64) then (acc.1 ++ [l], acc.2)
      else (acc.1, acc.2.commitLine (fin8 o) (some p) (l.1 / 64) (BitVec.allOnes 64) l.2 false)
    | none => acc) ([], s)

/-- The write group that a reset cut short is committed again (R393); its record keeps the lines that cannot commit yet. -/
def State.finishGroup (s : State) : State :=
  match s.groupRec with
  | none => s
  | some g =>
    let (left, s) := s.commitGroup g.port g.lines
    ({ s with led := { s.led with group := s.led.group.put (if left.isEmpty then none else some { g with lines := left }) } }).grantCredits

/-- The commit of a write group (R392 steps 2–5): the first fence whose earlier writes have committed, and whose lines can, goes on: group record, lines,
record cleared, response. A group that a reset cut short comes first. -/
def State.groupCommits (s : State) : State :=
  if s.rst.mgmtDown || s.power.flush != .idle then s
  else
    let s := s.finishGroup
    match s.firm.fences.find? (fun f => !s.writesBefore f.1.port f.2 && (s.commitGroup f.1.port f.1.lines).1.isEmpty && (f.1.lines.isEmpty || s.groupRec.isNone)) with
    | none => s
    | some (g, n) =>
      let s := { s with firm := { s.firm with fences := s.firm.fences.filter (fun f => !(f.1 == g && f.2 == n)) } }
      if g.lines.isEmpty then s.respond (.head g.port) g.tag g.digest .success (vHead 0 g.tag.toNat 0 ++ leBytes 8 0 ++ leBytes 8 0)
      else
        let seq : BitVec 64 := s.firm.groupSeq + 1
        let s := { s with firm := { s.firm with groupSeq := seq }, led := { s.led with group := s.led.group.put (some { g with seq := seq }) } }
        let s := (s.commitGroup g.port g.lines).2
        let s := { s with led := { s.led with group := s.led.group.put none } }
        (s.respond (.head g.port) g.tag g.digest .success (vHead 0 g.tag.toNat 0 ++ leBytes 2 g.lines.length ++ leBytes 6 0 ++ leBytes 8 seq.toNat)).grantCredits

end Sys2Proof.Machine
end

