-- ==== Sys2Proof/Machine/Keys.lean ====
section
/-! DEFINITION. Key slots and rekeys (R336–R349, R355, R395–R398). -/

namespace Sys2Proof.Machine

/-! ## Slots -/

/-- State of a key slot (Table 10-6): 0 Empty, 1 Loaded, 2 Absent, 3 Quarantined. -/
def State.slotSt (s : State) (n : Nat) : Nat := ((SMap.get? s.keys n).map (·.st)).getD 0

/-- A descriptor names a slot, as KEY_ID or, while Rekeying, as NEW_KEY_ID. -/
def Desc.names (d : Desc) (slot : Nat) : Bool := (d.keyId == slot && d.mode != .clear) || (d.st == .rekeying && d.newKey == slot)

/-- Regions whose KEY_ID is the slot. -/
def State.regionsOf (s : State) (slot : Nat) : List Nat := (s.desc.filter (fun e => e.2.mode != .clear && e.2.keyId == slot)).map (·.1)

/-- A key slot is being changed by a retirement (check 6). -/
def State.slotClash (s : State) (slot : Nat) : Option Nat := if s.ops.retires.any (fun r => r.slot = slot) then some 0 else none

/-- Load a slot and record it, and store the ledger (R339). -/
def State.newKey (s : State) (slot : Nat) (dev : Bool) (key : BitVec 512) : State :=
  let wrapped := if dev then (kwWrap (leNats 32 s.fused.rootKey.toNat) (leNats 64 key.toNat)).map (BitVec.ofNat 8) else []
  let s := { s with
    keys := SMap.put s.keys slot ⟨1, dev, key, macKeyOf key, kcvOf key, 0⟩
    led := { s.led with keys := s.led.keys.put (SMap.put s.keyRecs slot ⟨1, dev, kcvOf key, wrapped⟩) } }
  s.store

/-- Output of KEY_LOAD (Table 12-10). -/
def keyOut (slot : Nat) (dev : Bool) (kcv : BitVec 64) : List Byte :=
  leBytes 2 slot ++ leBytes 1 1 ++ leBytes 1 (bitAt dev 0) ++ leBytes 4 0 ++ leBytes 8 kcv.toNat

/-- A reloaded host key: every Locked region naming the slot becomes Active (Table 10-7). -/
def State.reloadKey (s : State) (slot : Nat) (x : Slot) (key : BitVec 512) : State :=
  let s := { s with keys := SMap.put s.keys slot { x with st := 1, key := key, mac := macKeyOf key } }
  s.desc.foldl (fun s e => if e.2.st == .locked && e.2.names slot then s.modDesc e.1 (fun d => { d with st := .active }) else s) s

/-- KEY_LOAD (R337, R339, R395). The alarm of a wrong key check value concerns no slice: FIRST_SLICE takes the issuing head's number, 0 for the sideband
(DESIGN CHOICE: R79 names none; log entry 68). -/
def execKeyLoad (src : Src) (pl : List Byte) (s : State) : Host.Outcome State Fault Refusal :=
  .next (s.vendor src (.keyLoad src pl) pl { VSpec.plain 0xC020 72 (some 2) with clash := fun s => s.slotClash (field pl 4 2) } (fun s =>
    let slot := field pl 4 2
    let s := s.emit (.payloadZero src 8 71)
    let no := fun (e : Nat) => VRes.noWith e s
    let req := field pl 6 1
    let key : BitVec 512 := BitVec.ofNat 512 (leVal (bytesAt pl 8 64))
    let done := fun (s : State) => match src with | .head p => s.count p 0x509 | .i3c => s
    if slot = 0 || 2047 < slot then no 0x0301
    else if 2 < req then no 0x0205
    else if s.slotSt slot = 3 then no 0x0304
    else if req = 1 then
      match SMap.get? s.keys slot with
      | none => no 0x0303
      | some x =>
        if x.st ≠ 2 then no 0x0303
        else if kcvOf key = x.kcv then .ok (keyOut slot false x.kcv) (done (s.reloadKey slot x key))
        else
          let s := match src with | .head p => s.count p 0x50A | .i3c => s
          .noWith 0x0303 (s.alarm 4 (match src with | .head p => p.val | .i3c => 0) 0 0)
    else if s.slotSt slot ≠ 0 then no 0x0302
    else if req = 2 && decide (256 ≤ s.deviceKeys) then no 0x0308
    else if s.storeRefused then no 0x0501
    else if req = 0 then .ok (keyOut slot false (kcvOf key)) (done (s.newKey slot false key))
    else
      let (n, s) := s.draw
      let key : BitVec 512 := Config.random n 512
      .ok (keyOut slot true (kcvOf key)) (done (s.newKey slot true key))))

/-- KEY_QUERY (R397). -/
def execKeyQuery (src : Src) (pl : List Byte) (s : State) : Host.Outcome State Fault Refusal :=
  .next (s.vendor src (.keyQuery src pl) pl (VSpec.plain 0xC022 8 (some 2)) (fun s =>
    let first := field pl 4 2
    let count := field pl 6 2
    if first = 0 || 2047 < first || count = 0 || 63 < count then .no 0x0301
    else
      let n := min count (2048 - first)
      let entry := fun (i : Nat) =>
        let slot := first + i
        let x := SMap.get? s.keys slot
        let st := s.slotSt slot
        let kcv := match x with | some x => if st = 1 ∨ st = 2 then x.kcv.toNat else 0 | none => 0
        leBytes 2 slot ++ leBytes 1 st ++ leBytes 1 (bitAt ((x.map (·.dev)).getD false) 0) ++ leBytes 8 kcv ++
          leBytes 2 ((s.desc.filter (fun e => e.2.names slot)).length) ++ leBytes 2 0
      .ok (leBytes 2 n ++ leBytes 6 0 ++ (List.range n).flatMap entry) s))

/-! ## Retiring a key (R341–R343) -/

/-- KEY_RETIRE (R342, R343, R396): its slot and step are recorded and stored, and the drain of step 1 begins. -/
def execKeyRetire (src : Src) (pl : List Byte) (s : State) : Host.Outcome State Fault Refusal :=
  .next (s.vendor src (.keyRetire src pl) pl
    { VSpec.plain 0xC021 8 (some 2) with bg := true, clash := fun s => if 8 ≤ s.ops.retires.length then some 0 else s.slotClash (field pl 4 2) }
    (fun s =>
      let slot := field pl 4 2
      let erase := decide (field pl 6 1 % 2 = 1)
      if slot = 0 || 2047 < slot then .no 0x0301
      else if s.slotSt slot = 0 || s.slotSt slot = 3 then .no 0x030B
      else if s.desc.any (fun e => e.2.st == .rekeying && e.2.names slot) then .no 0x0306
      else if !erase && s.desc.any (fun e => e.2.names slot) then .no 0x0305
      else .bg (.retire slot 0) (s.putOps (fun o => { o with retires := o.retires ++ [⟨slot, erase, 1⟩] })).store))

/-- Record the step that a retirement has reached, and store the ledger (R343, Table 15-2). -/
def State.retireStep (s : State) (slot step : Nat) : State :=
  (s.putOps (fun o => { o with retires := o.retires.map (fun r => if r.slot = slot then { r with step := step } else r) })).store

/-- A line of a region, data or tree, that a retirement drops. -/
def State.lineOfRegions (s : State) (rs : List Nat) (line : Nat) : Bool :=
  match s.lineRegion line with
  | some r => rs.contains r
  | none => false

/-- Dirty or Partial data lines of some regions remain in a front store, or a drain of theirs is under way. -/
def State.undrained (s : State) (k : SliceId) (rs : List Nat) : Bool :=
  let mine := fun (l : Nat) => (treeOf l).isNone && s.lineOfRegions rs l
  (s.slice k).front.dirtyList.any (fun l => mine l.1) || (s.slice k).front.poison.any (fun l => mine l && s.lineKeyed l) ||
    (s.slice k).media.drains.any (fun d => match s.lineOfPage k d.key 0 with | some l => mine l | none => false)

/-- A region loses its key (R338, R341 step 3): Unavailable with UNAVAIL_CAUSE 3, whatever its state; a discard that runs goes on and ends there. -/
def Desc.keyLost (d : Desc) : Desc := { d with st := .unavailable, back := if d.st == .discarding then .unavailable else d.back, cause := 3 }

/-- KEY_RETIRE_DRAINED (R341, R343): the drain of step 1 has ended, and steps 2 to 5 follow one another. -/
def execKeyRetireDrained (slot : Nat) (s : State) : Host.Outcome State Fault Refusal :=
  .next (
    let rs := s.regionsOf slot
    if !s.ops.retires.any (fun r => r.slot = slot) || s.rst.mgmtDown || s.power.flush != .idle || s.rst.todo.contains 12 then s
    else if s.liveSlices.any (fun k => (s.slice k).st != .working || s.undrained k rs) then s
    else
      let s := s.retireStep slot 2
      let s := s.liveSlices.foldl (fun s k => s.evict k (s.lineOfRegions rs)) s
      let s := s.retireStep slot 3
      let s := rs.foldl (fun s r => s.modDesc r Desc.keyLost) s
      let s := s.retireStep slot 4
      let s := { s with
        keys := SMap.put s.keys slot ⟨3, false, 0, 0, 0, s.beat.events⟩
        led := { s.led with keys := s.led.keys.put (SMap.put s.keyRecs slot ⟨3, false, 0, []⟩) } }
      let s := s.store.retireStep slot 5
      let s := (s.putOps (fun o => { o with retires := o.retires.filter (fun r => r.slot != slot) })).grantCredits
      match s.bgOf (fun b => match b with | .retire n _ => n = slot | _ => false) with
      | some p => s.endVendor p .success 0 (leBytes 2 slot ++ leBytes 2 rs.length)
      | none => s)

/-- KEY_QUARANTINE_END (R336, R341, R485): 2²⁰ beats after it was quarantined, from boot step 12 after a cold start, the slot is
Empty. -/
def execKeyQuarantineEnd (slot : Nat) (s : State) : Host.Outcome State Fault Refusal :=
  .next (match SMap.get? s.keys slot with
    | some x =>
      if x.st = 3 && decide (x.since + 2 ^ 20 ≤ s.beat.events) && !s.rst.todo.contains 12 then
        { s with keys := SMap.del s.keys slot, led := { s.led with keys := s.led.keys.put (SMap.del s.keyRecs slot) } }
      else s
    | none => s)

/-! ## Rekeying (R344–R349, R398) -/

/-- A REINIT range of a region is accepted (R349): on 4 MiB boundaries within it, over every unverifiable subtree, whole where the
key or a root is lost. -/
def State.reinitOk (s : State) (d : Desc) (lo hi : Nat) : Bool :=
  let size := d.count * 2 ^ 28
  let whole := lo = 0 ∧ hi = size
  let ks := (s.usedSlices d).filter (fun _ => d.mode == .sealed)
  decide (lo % 2 ^ 22 = 0 ∧ hi % 2 ^ 22 = 0 ∧ lo < hi ∧ hi ≤ size) &&
    (!(d.st == .unavailable && d.cause == 3) || decide whole) && (!ks.any (fun k => (s.slice k).tree.rootLost) || decide whole) &&
    (decide whole || ks.all (fun k => (s.slice k).tree.unver.all (fun n => !(s.unverIn k d 0 lo n) && !(s.unverIn k d hi size n))))

/-- REGION_REKEY (R344, R349, R398): a rekey starts, after the discard of REINIT's range when that is asked for. -/
def execRegionRekey (src : Src) (pl : List Byte) (s : State) : Host.Outcome State Fault Refusal :=
  .next (s.vendor src (.regionRekey src pl) pl { VSpec.plain 0xC023 32 (some 2) with bg := true, clash := fun s => s.regionClash (field pl 4 2) } (fun s =>
    let r := field pl 4 2
    let slot := field pl 6 2
    let reinit := decide (field pl 8 1 % 2 = 1)
    if 16383 < r then .no 0x0205
    else match SMap.get? s.desc r with
      | none => .no 0x0201
      | some d =>
        let size := d.count * 2 ^ 28
        let lo := if field pl 24 8 = 0 then 0 else field pl 16 8
        let hi := if field pl 24 8 = 0 then size else field pl 16 8 + field pl 24 8
        if d.mode == .clear then .no 0x030C
        else if slot = 0 || 2047 < slot then .no 0x0301
        else if s.slotSt slot ≠ 1 then .no 0x0307
        else if !(d.st == .active || (reinit && d.st == .unavailable && (d.cause == 1 || d.cause == 3))) then .no 0x0206
        else if slot = d.keyId then .no 0x0205
        else if reinit then
          if !s.reinitOk d lo hi then .no 0x030A
          else .bg (.rekey r 0) { s with discards := s.discards ++ [⟨r, false, false, lo, hi, [], some slot⟩] }
        else
          let s := (s.putOps (fun o => if o.rekeys.length < 48 then { o with rekeys := o.rekeys ++ [⟨r, d.keyId, slot, 0⟩] } else o)).store
          let s := s.mapSlices (fun x => { x with tree := { x.tree with warned := x.tree.warned.filter (fun n => n % 65536 != r) } })
          .bg (.rekey r 0) ((s.modDesc r (fun d => { d with st := .rekeying, newKey := slot, rekeyPtr := 0 })).loadChunk r)))

/-- REKEY_CHUNK_COMPLETE (R345, R347): every slice has finished the chunk, so REKEY_PTR advances; at the region's end the new key is
its key. -/
def execRekeyChunkComplete (r : Nat) (s : State) : Host.Outcome State Fault Refusal :=
  .next (match SMap.get? s.desc r, SMap.get? s.chunks r with
    | some d, some todo =>
      if todo.any (s.rekeyHolds d) || d.st != .rekeying || s.rst.mgmtDown || s.power.flush != .idle || !s.keysLoaded d then s
      else
        let total := d.count * 64
        let s := s.liveSlices.foldl (fun s k => s.count k 0x506) s
        let p := s.bgOf (fun b => match b with | .rekey n _ => n = r | _ => false)
        let n := match p.bind (fun p => (s.head p).bg) with | some b => (match b.kind with | .rekey _ c => c + 1 | _ => 1) | none => 1
        let s := match p with | some p => (s.bgKind p (.rekey r n)).bgProgress p ((d.rekeyPtr + 1) * 100 / total) | none => s
        let s := { s with chunks := SMap.del s.chunks r }
        if d.rekeyPtr + 1 < total then
          let s := s.pokeDesc r (fun d => { d with rekeyPtr := d.rekeyPtr + 1 })
          let s := s.putOps (fun o => { o with rekeys := o.rekeys.map (fun x => if x.region = r then { x with ptr := d.rekeyPtr + 1 } else x) })
          s.loadChunk r
        else
          let s := s.modDesc r (fun d => { d with st := .active, keyId := d.newKey, newKey := 0, rekeyPtr := 0 })
          let s := s.putOps (fun o => { o with rekeys := o.rekeys.filter (fun x => x.region != r) })
          match p with
          | some p => s.endVendor p .success 0 (leBytes 2 r ++ leBytes 2 0 ++ leBytes 4 n)
          | none => s
    | _, _ => s)

end Sys2Proof.Machine
end

