-- ==== Sys2Proof/Machine/Engines.lean ====
section
/-! DEFINITION. Vendor commands of the beat, the Lens, the Pacer, the arbiters and the counters (R268–R270, R281, R307,
R314–R316, R197, R198, R213, R399–R407, R520–R528). -/

namespace Sys2Proof.Machine

/-! ## Naming slices and channels (R373, Table 12-18) -/

/-- Status of a slice number in an input: absent, stopped, or 0. -/
def State.sliceFault (s : State) (k : Nat) (absent : Nat) : Nat :=
  if s.nSlices ≤ k then absent else if s.stopped (fin8 k) then 0x0402 else 0

/-- A channel of a slice is marked absent. -/
def State.chanAbsent (s : State) (k j : Nat) : Bool := s.mediaRec.absent.any (fun a => a.mc = 16 * k + j)

/-- Slices that a mask names. -/
def maskSlices (m : Nat) : List SliceId := (List.finRange 8).filter (fun k => decide (m / 2 ^ k.val % 2 = 1))

/-- Channels that a mask names. -/
def maskChans (m : Nat) : List ChanId := (List.finRange 16).filter (fun j => decide (m / 2 ^ j.val % 2 = 1))

/-- Status of a slice mask: some slice absent, some stopped, or 0. -/
def State.maskFault (s : State) (m absent : Nat) : Nat :=
  if 2 ^ s.nSlices ≤ m then absent else if (maskSlices m).any s.stopped then 0x0402 else 0

/-! ## The beat -/

/-- EPOCH_SET (R268–R270, R399). -/
def execEpochSet (src : Src) (pl : List Byte) (s : State) : Host.Outcome State Fault Refusal :=
  .next (s.vendor src (.epochSet src pl) pl (VSpec.plain 0xC030 16 (some 1)) (fun s =>
    let e : BitVec 64 := BitVec.ofNat 64 (field pl 8 8)
    if s.beat.source = 0 then .no 0x0631
    else if s.beat.epoch != .unfixed then .no 0x0632
    else if e < s.beat.now then .noWith 0x0630 { s with beat := { s.beat with backward := true } }
    else
      let s := s.fixEpoch e .host
      .ok (leBytes 8 s.beat.now.toNat) s))

/-- BEAT_STATUS (R400). -/
def execBeatStatus (src : Src) (pl : List Byte) (s : State) : Host.Outcome State Fault Refusal :=
  .next (s.vendor src (.beatStatus src pl) pl (VSpec.plain 0xC031 4 none) (fun s =>
    let t := s.timeRec
    let left := s.liveSlices.foldl (fun n k => n + (s.slice k).passTodo.length) 0
    .ok (leBytes 8 s.beat.now.toNat ++ leBytes 8 s.beat.reg.toNat ++ leBytes 8 t.l.toNat ++ leBytes 8 t.w.toNat ++
      leBytes 8 (if s.beat.epoch == .unfixed then 0 else s.beat.tFix.toNat) ++ leBytes 8 s.beat.delta.toNat ++
      leBytes 1 (bitAt t.unconfirmed 0 + t.pass * 2 + bitAt (s.beat.epoch == .provisional) 3) ++ leBytes 7 0 ++ leBytes 8 left) s))

/-! ## The Lens -/

/-- A slice is being reset, swept or retired: what check 6 finds being changed. -/
def State.sliceClash (s : State) (k : Nat) : Option Nat :=
  if (s.bgOf (fun b => match b with | .sliceReset q | .sramRetire q _ _ _ | .lensSweep q _ => q.val == k | _ => false)).isSome then some 0 else none

/-- Channels and dies that a LENS_CALIBRATE names. -/
def lensTargets (pl : List Byte) : List (ChanId × DieId) :=
  (maskChans (field pl 6 2)).flatMap (fun j => (maskSlices (field pl 8 1)).map (fun d => (j, d)))

/-- A sweep with nothing left to take ends (R401). -/
def State.sweepDone (s : State) (src : Src) : State :=
  match src with
  | .i3c => s
  | .head p => match (s.head p).bg with
    | some b => if (match b.kind with | .lensSweep _ todo => todo.isEmpty | _ => false) then s.endVendor p .success 0 (leBytes 8 0) else s
    | none => s

/-- LENS_CALIBRATE (R281, R307, R401): defaults, a sweep, or the entries of a die. -/
def execLensCalibrate (src : Src) (pl : List Byte) (s : State) : Host.Outcome State Fault Refusal :=
  let act := field pl 4 1
  .next (s.vendor src (.lensCalibrate src pl) pl
    { VSpec.plain 0xC032 12 (some 1) with bg := act == 1, clash := fun s => if act < 2 then s.sliceClash (field pl 5 1) else none }
    (fun s =>
      let k := field pl 5 1
      let ts := lensTargets pl
      let chans := maskChans (field pl 6 2)
      let dies := maskSlices (field pl 8 1)
      if 2 < act || (act = 2 && 1 < field pl 9 1) then .no 0x0205
      else if s.nSlices ≤ k || chans.any (fun j => s.chanAbsent k j.val) || dies.any (fun d => decide (s.dies ≤ d.val)) then .no 0x0601
      else if act = 2 && (chans.length ≠ 1 || dies.length ≠ 1) then .no 0x0601
      else if s.stopped (fin8 k) then .no 0x0402
      else
        let k : SliceId := fin8 k
        if act = 0 then
          let s := ts.foldl (fun s t =>
            let s := s.updSlice k (fun x => { x with
              lens := x.lens.filter (fun e => decide (e.1 / 120 ≠ t.1.val * 8 + t.2.val))
              lensImages := SMap.put x.lensImages (t.1.val * 8 + t.2.val) s.activeImage })
            if (s.chan k t.1).up then s.loadLens k t.1 t.2 else s) s
          .ok (leBytes 8 0) s
        else if act = 2 then
          let cd := (ts.head?.map (fun t => t.1.val * 8 + t.2.val)).getD 0
          .ok (leBytes 8 60 ++ (List.range 60).flatMap (fun i => leBytes 8 ((s.slice k).lensEntry cd (decide (field pl 9 1 = 1)) (i % 12) (i / 12)).toNat)) s
        else
          let todo := ts.flatMap (fun t => (s.combos k (t.1.val * 8 + t.2.val)).map (fun c => (t.1.val * 8 + t.2.val, c.1, c.2)))
          let s := todo.foldl (fun (s : State) (c : Nat × Bool × Nat) => s.sample k (ch16 (c.1 / 8)) (fin8 c.1) c.2) s
          .bg (.lensSweep k todo) s) |>.sweepDone src)

/-! ## The Pacer -/

/-- PARAMETERS as PACER_SET carries them, bytes 6–15. -/
def PaceParm.bytes (p : PaceParm) : List Byte :=
  leBytes 1 p.normal ++ leBytes 1 p.sprint ++ leBytes 1 p.idle ++ leBytes 1 p.maxAge ++ leBytes 2 p.cal ++ leBytes 4 p.tree

/-- Output of PACER_GET (Table 12-14), from byte 8. -/
def State.pacerOut (s : State) (k : SliceId) (part : Nat) : List Byte :=
  let x := s.slice k
  if part = 0 then
    leBytes 1 k.val ++ leBytes 1 (bitAt x.pacer.sprint 0 + bitAt (s.journalPressure k) 1) ++ leBytes 1 (s.dirty64 k) ++ leBytes 1 0 ++
      x.pacer.parm.bytes ++ leBytes 2 0 ++ leBytes 8 0 ++
      x.chans.toList.flatMap (fun c => leBytes 2 c.pace.lapBudget ++ leBytes 1 (min x.pacer.ended 3) ++ leBytes 2 c.pace.splitBudget ++ leBytes 2 c.pace.spent ++
        leBytes 2 c.pace.deficit ++ leBytes 6 c.pace.mandSum.toNat ++ leBytes 6 c.pace.overSum.toNat ++ leBytes 6 c.pace.repaidSum.toNat ++
        leBytes 4 c.pace.floorLaps.toNat ++ leBytes 4 c.pace.sprintLaps.toNat ++ leBytes 5 0)
  else
    leBytes 1 k.val ++ leBytes 1 part ++ leBytes 6 0 ++
      ((x.chans.toList.drop (8 * (part - 1))).take 8).flatMap (fun c => c.dies.toList.flatMap (fun d =>
        leBytes 4 d.scrubLeft ++ leBytes 6 d.scrubDue ++ leBytes 2 d.scrubLate.toNat))

/-- Clear the sums that CLEAR names (R402). -/
def Chan.clearPace (c : Chan) : Chan :=
  { c with
    pace := { c.pace with mandSum := 0, overSum := 0, repaidSum := 0, floorLaps := 0, sprintLaps := 0 }
    dies := mapV c.dies (fun d => { d with scrubLate := 0 }) }

/-- PACER_GET (R316, R402): values as they stood before a CLEAR. -/
def execPacerGet (src : Src) (pl : List Byte) (s : State) : Host.Outcome State Fault Refusal :=
  let clear := decide (field pl 5 1 % 2 = 1)
  .next (s.vendor src (.pacerGet src pl) pl (VSpec.plain 0xC040 8 (if clear then some 1 else none)) (fun s =>
    let part := field pl 6 1
    if 2 < part then .no 0x0205
    else match s.sliceFault (field pl 4 1) 0x0601 with
      | 0 =>
        let k : SliceId := fin8 (field pl 4 1)
        .ok (s.pacerOut k part) (if clear then s.updSlice k (fun x => { x with chans := mapV x.chans Chan.clearPace }) else s)
      | e => .no e))

/-- PACER_SET (R314, R315, R403): taken at each named slice's next lap boundary. -/
def execPacerSet (src : Src) (pl : List Byte) (s : State) : Host.Outcome State Fault Refusal :=
  .next (s.vendor src (.pacerSet src pl) pl (VSpec.plain 0xC041 16 (some 1)) (fun s =>
    let p := pacerAt pl 6
    match s.maskFault (field pl 4 1) 0x0640 with
    | 0 => if !paceOk p then .no 0x0640
      else .ok [] ((maskSlices (field pl 4 1)).foldl (fun s k => s.updSlice k (fun x => { x with pacer := { x.pacer with next := some p } })) s)
    | 0x0402 => if !paceOk p then .no 0x0640 else .no 0x0402
    | e => .no e))

/-! ## The arbiters -/

/-- ARB_WEIGHTS_SET (R197, R198, R404). -/
def execArbWeightsSet (src : Src) (pl : List Byte) (s : State) : Host.Outcome State Fault Refusal :=
  .next (s.vendor src (.arbWeightsSet src pl) pl (VSpec.plain 0xC050 24 (some 1)) (fun s =>
    let m := field pl 4 1
    let w := weightsAt pl 8
    let hold := field pl 20 2
    let ks := maskSlices m
    let js := maskChans (field pl 6 2)
    if m = 0 || js.isEmpty || 2 ^ s.nSlices ≤ m || !arbOk w hold then .no 0x0620
    else if ks.any (fun k => js.any (fun j => s.chanAbsent k.val j.val)) then .no 0x0601
    else if ks.any s.stopped then .no 0x0402
    else
      let s := ks.foldl (fun s k => js.foldl (fun s j => s.updChan k j (fun c => { c with arb := { c.arb with nextWeights := some (w, hold) } })) s) s
      .ok (leBytes 2 (ks.length * js.length) ++ leBytes 2 0) s))

/-- Output of ARB_STATS (Table 12-15), from byte 8. -/
def State.arbOut (s : State) (k : SliceId) (j : ChanId) : List Byte :=
  let a := (s.chan k j).arb
  let rq : List Rq := [.fr, .fw, .fd, .sc, .cb, .mx]
  leBytes 1 k.val ++ leBytes 1 j.val ++ leBytes 2 a.holdLimit ++ (a.armed.getD a.weights).toList.flatMap (fun w => leBytes 2 w.toNat) ++
    leBytes 2 a.lockAbandoned.toNat ++ leBytes 2 0 ++ leBytes 4 a.displaced.toNat ++ leBytes 4 a.lateStarts.toNat ++ leBytes 4 a.pauses.toNat ++
    leBytes 4 a.overBound.toNat ++ leBytes 4 0 ++
    rq.flatMap (fun r =>
      let t := a.stats[r.ix]
      leBytes 4 t.grants.toNat ++ leBytes 6 t.waitSum.toNat ++ leBytes 3 t.waitMax.toNat ++ leBytes 1 (bitAt (s.eligible k j r) 0) ++
        leBytes 6 t.holdSum.toNat ++ leBytes 2 (BitVec.ofInt 16 (a.credits[r.ix])).toNat ++ leBytes 2 t.cutoff.toNat)

/-- Every statistic cleared but CREDIT and ELIGIBLE (R405). -/
def Arb.clearStats (a : Arb) : Arb :=
  { a with stats := Vector.replicate 6 RqStat.reset, lockAbandoned := 0, displaced := 0, lateStarts := 0, pauses := 0, overBound := 0 }

/-- ARB_STATS (R213, R405). -/
def execArbStats (src : Src) (pl : List Byte) (s : State) : Host.Outcome State Fault Refusal :=
  let clear := decide (field pl 6 1 % 2 = 1)
  .next (s.vendor src (.arbStats src pl) pl (VSpec.plain 0xC051 8 (if clear then some 1 else none)) (fun s =>
    let k := field pl 4 1
    let j := field pl 5 1
    if s.nSlices ≤ k || 16 ≤ j || s.chanAbsent k j then .no 0x0601
    else if s.stopped (fin8 k) then .no 0x0402
    else .ok (s.arbOut (fin8 k) (ch16 j)) (if clear then s.updChan (fin8 k) (ch16 j) (fun c => { c with arb := c.arb.clearStats }) else s)))

/-! ## The counters -/

/-- Event numbers with a meaning (Tables 02-18, 06-4, 08-9, 09-6, 10-10, 17-1). -/
def eventKnown (e : Nat) : Bool :=
  decide (e ≤ 1 ∨ (0x010 ≤ e ∧ e ≤ 0x014) ∨ (0x100 ≤ e ∧ e ≤ 0x10D) ∨ (0x200 ≤ e ∧ e ≤ 0x20E) ∨ (0x300 ≤ e ∧ e ≤ 0x30B) ∨ (0x310 ≤ e ∧ e ≤ 0x314) ∨
    (0x400 ≤ e ∧ e ≤ 0x40B) ∨ (0x500 ≤ e ∧ e ≤ 0x50B) ∨ (0x600 ≤ e ∧ e ≤ 0x606) ∨ (0x700 ≤ e ∧ e ≤ 0x709))

/-- Events and channels of a COUNTERS_CONFIG, by counter. -/
def counterEntries (pl : List Byte) : List (BitVec 12 × BitVec 4) :=
  (List.range 16).map (fun n => (BitVec.ofNat 12 (field pl (16 + 4 * n) 2), BitVec.ofNat 4 (field pl (18 + 4 * n) 1)))

/-- One counter taking its configuration (R523). -/
def Counter.config (c : Counter) (action : Nat) (e : BitVec 12 × BitVec 4) : Counter :=
  let c := if action = 0 ∨ action = 2 then { c with event := e.1, chan := e.2 } else c
  if action = 1 ∨ action = 2 then { c with value := 0, ovf := false } else c

/-- The configuration that waits takes effect in the slice at one instant (R523). -/
def Slice.applyCounters (x : Slice) : Slice :=
  match x.ctrPending with
  | none => x
  | some (mask, action, es) =>
    { x with
      ctrPending := none
      counters := Vector.ofFn (fun i : Fin 16 => if mask.getLsbD i.val then (x.counters[i]).config action (es.getD i.val (0, 0)) else x.counters[i]) }

/-- COUNTERS_CONFIG (R406, R523): refused as a whole for an event without a meaning, CHAIN on counter 0, or a channel above 15. A command that only clears
(ACTION 1) uses no entry, so its entries are not checked (DESIGN CHOICE: R406 and R523 name no exception; log entry 29). -/
def execCountersConfig (src : Src) (pl : List Byte) (s : State) : Host.Outcome State Fault Refusal :=
  .next (s.vendor src (.countersConfig src pl) pl (VSpec.plain 0xC060 80 (some 1)) (fun s =>
    let mask : BitVec 16 := BitVec.ofNat 16 (field pl 6 2)
    let action := field pl 8 1
    let bad := (List.range 16).any (fun n => mask.getLsbD n && (
      let e := field pl (16 + 4 * n) 2 % 4096
      !eventKnown e || (n = 0 && e = 1) || decide (15 < field pl (18 + 4 * n) 1)))
    if 2 < action then .no 0x0205
    else match s.sliceFault (field pl 4 1) 0x0601 with
      | 0 => if action ≠ 1 && bad then .no 0x0650
        else .ok [] (s.updSlice (fin8 (field pl 4 1)) (fun x => { x.applyCounters with ctrPending := some (mask, action, counterEntries pl) }))
      | e => .no e))

/-- COUNTERS_CONFIG_APPLY (R523): within 1 µs of the command's completion. -/
def execCountersConfigApply (k : SliceId) (s : State) : Host.Outcome State Fault Refusal := .next (s.updSlice k Slice.applyCounters)

/-- COUNTERS_USER_ACCESS (R407, R528). -/
def execCountersUserAccess (src : Src) (pl : List Byte) (s : State) : Host.Outcome State Fault Refusal :=
  .next (s.vendor src (.countersUserAccess src pl) pl (VSpec.plain 0xC061 8 (some 1)) (fun s =>
    let m := field pl 4 1
    if 2 ^ s.nSlices ≤ m then .no 0x0205
    else
      let s := s.sliceIds.foldl (fun s p => s.updHead p (fun h => { h with userRead := decide (m / 2 ^ p.val % 2 = 1) })) s
      .ok (leBytes 1 m ++ leBytes 3 0) s))

end Sys2Proof.Machine
end

