-- ==== Sys2Proof/Machine/Service.lean ====
section
/-! DEFINITION. Vendor commands of the ledger, health, retirement, resets, records, debug, telemetry and hold-up (R151–R155,
R408–R422, R465, R483–R487). -/

namespace Sys2Proof.Machine

/-! ## Ledger (R408–R410, R484) -/

/-- LEDGER_READ (R408): wraps within its page. -/
def execLedgerRead (src : Src) (pl : List Byte) (s : State) : Host.Outcome State Fault Refusal :=
  .next (s.vendor src (.ledgerRead src pl) pl (VSpec.plain 0xC070 10 (some 1)) (fun s =>
    let page := field pl 4 2
    let off := field pl 6 2
    let len := field pl 8 2
    if 255 < page || 1023 < off || len = 0 || 1008 < len then .no 0x0506
    else
      let (n, s) := s.draw
      .ok (leBytes 2 page ++ leBytes 2 off ++ leBytes 2 len ++ leBytes 2 0 ++ (List.range len).map (fun i => s.led.byte n page ((off + i) % 1024))) s))

/-- Reserved bytes of a rail configuration page (R12, Tables 15-1, 15-4). -/
def railReserved (i : Nat) : Bool := decide ((8 ≤ i ∧ i < 12) ∨ (16 ≤ i ∧ i < 88 ∧ i % 4 = 3) ∨ i = 90 ∨ i = 91)

/-- Write bytes into a rail configuration page, wrapping to its start; reserved bytes stay zero (R12, R409). -/
def writePage (m : List Host.Cell) (off : Nat) (bs : List Byte) : List Host.Cell :=
  bs.zipIdx.foldl (fun m b => let i := (off + b.2) % 1024
    if railReserved i then m else Mem.write m i b.1) m

/-- LEDGER_WRITE (R409, R484): the rail configuration pages only, in the ledger SRAM only. -/
def execLedgerWrite (src : Src) (pl : List Byte) (s : State) : Host.Outcome State Fault Refusal :=
  .next (s.vendor src (.ledgerWrite src pl) pl (VSpec.plain 0xC071 (12 + field pl 8 2) (some 1)) (fun s =>
    let page := field pl 4 2
    let off := field pl 6 2
    let len := field pl 8 2
    if 255 < page || 1023 < off || len = 0 || 1024 < len then .no 0x0506
    else if page = 8 then .ok [] { s with led := { s.led with rail8 := writePage s.led.rail8 off (bytesAt pl 12 len) } }
    else if page = 9 then .ok [] { s with led := { s.led with rail9 := writePage s.led.rail9 off (bytesAt pl 12 len) } }
    else .no 0x0505))

/-- LEDGER_STORE (R410, R487): the store begins; it ends within 180 µs. -/
def execLedgerStore (src : Src) (pl : List Byte) (s : State) : Host.Outcome State Fault Refusal :=
  .next (s.vendor src (.ledgerStore src pl) pl { VSpec.plain 0xC072 4 (some 1) with clash := fun s => if s.firm.store.isSome then some 0 else none } (fun s =>
    if s.storeRefused then .no 0x0501
    else
      let tag : BitVec 16 := BitVec.ofNat 16 (field pl 0 2)
      let dg : BitVec 64 := if tag = 0 then 0 else digestOf 0xC072 pl
      let s := s.storeBegin
      .later { s with firm := { s.firm with store := some (src, tag, dg) } }))

/-- A LEDGER_STORE ends (R410, R464): the reset sources that waited take effect. -/
def State.ledgerStoreEnds (s : State) (us : Nat) : State :=
  match s.firm.store with
  | none => s
  | some (src, tag, dg) =>
    if 180 < us then s
    else
      let s := { s.storeEnd with firm := { s.firm with store := none } }
      let s := s.respond src tag dg .success (vHead 0 tag.toNat 0 ++ leBytes 4 s.shadow.stores ++ leBytes 4 us)
      s.releasePending

/-! ## Health -/

/-- Byte of CHANNEL_STATE for MCn (Table 12-16). -/
def State.chanState (s : State) (n : Nat) : Nat :=
  let k : SliceId := fin8 (n / 16)
  if s.nSlices ≤ n / 16 then 0
  else
    let h := SMap.getD (s.slice k).media.health (n % 16) 0
    h + bitAt (s.chanAbsent (n / 16) (n % 16)) 3 + bitAt (h == 4) 4 + bitAt ((s.slice k).media.deadDies.any (fun d => decide (d / 8 = n % 16))) 5

/-- Byte of TRAIN_WINDOW for MCn. -/
def State.chanWindow (s : State) (n : Nat) : Nat :=
  if s.nSlices ≤ n / 16 || s.chanAbsent (n / 16) (n % 16) then 0 else (s.chan (fin8 (n / 16)) (ch16 n)).window

/-- HEALTH_EXT (R411): lost slices from their last values (R373). -/
def execHealthExt (src : Src) (pl : List Byte) (s : State) : Host.Outcome State Fault Refusal :=
  .next (s.vendor src (.healthExt src pl) pl { VSpec.plain 0xC080 4 none with sideband := true } (fun s =>
    .ok (leBytes 1 s.healthState ++ leBytes 1 s.healthFlags ++ leBytes 1 (min s.wearUsed 255) ++ leBytes 1 s.spareLeft ++ leBytes 2 s.health.causes.toNat ++
      leBytes 1 s.sliceOk ++ leBytes 1 0 ++ leBytes 4 s.health.links.toNat ++ leBytes 4 s.shadow.stores ++ leBytes 2 s.rst.skipped.toNat ++ leBytes 6 0 ++
      s.health.temps.toList.flatMap (fun t => leBytes 8 t.toNat) ++ s.health.errors.toList.flatMap (fun e => leBytes 8 e.toNat) ++
      (List.range 128).flatMap (fun n => leBytes 1 (s.chanState n)) ++ (List.range 128).flatMap (fun n => leBytes 1 (s.chanWindow n))) s))

/-- Frame that holds a word of the front store (R116). -/
def frameOfWord (w : Nat) : Option Nat :=
  let a := w * 8
  if a < 0x10000000 then some (a / 2048) else if 0x1A100000 ≤ a ∧ a < 0x1B100000 then some ((a - 0x1A100000) / 128) else none

/-- Frames of a slice that hold a logged location (R151). -/
def Front.candidates (f : Front) : List Nat := ((f.errs.filter (fun e => e.kind != 0)).filterMap (fun e => frameOfWord e.word)).eraseDups

/-- Entries of a RETIRE_LIST list for a slice (R412). -/
def State.retireEntries (s : State) (k : SliceId) (list : Nat) : List (List Byte) :=
  let x := s.slice k
  if list = 0 then
    let c := x.front.candidates
    (x.front.errs.filter (fun e => e.kind != 0)).map (fun e =>
      let f := frameOfWord e.word
      let bank := match f with | some n => decide (16 ≤ (c.filter (fun m => m % 16 / 2 = n % 16 / 2)).length) | none => false
      leBytes 4 e.word ++ leBytes 1 (sramDie (e.word % 8)) ++ leBytes 1 e.kind.toNat ++ leBytes 1 (bitAt f.isSome 0 + bitAt bank 1) ++ leBytes 1 0 ++ leBytes 8 e.beat.toNat)
  else if list = 1 then
    (s.retireList.frames.filter (fun f => f.1 = k.val)).map (fun f => leBytes 1 0 ++ leBytes 1 0 ++ leBytes 1 0 ++ leBytes 1 0 ++ leBytes 4 f.2.1 ++ leBytes 8 f.2.2.toNat) ++
    (s.retireList.banks.filter (fun b => b.1 = k.val)).map (fun b => leBytes 1 1 ++ leBytes 1 b.2.1 ++ leBytes 1 b.2.2.1 ++ leBytes 1 0 ++ leBytes 4 0 ++ leBytes 8 b.2.2.2.toNat)
  else
    x.media.retiredBlocks.map (fun b =>
      leBytes 1 (b.1 / 131072) ++ leBytes 1 (b.1 / 16384 % 8) ++ leBytes 2 (b.1 % 16384) ++ leBytes 1 b.2.cause ++ leBytes 3 0 ++ leBytes 3 b.2.resets ++ leBytes 5 0)

/-- RETIRE_LIST (R412). -/
def execRetireList (src : Src) (pl : List Byte) (s : State) : Host.Outcome State Fault Refusal :=
  .next (s.vendor src (.retireList src pl) pl (VSpec.plain 0xC081 12 none) (fun s =>
    let list := field pl 5 1
    if 2 < list then .no 0x0205
    else match s.sliceFault (field pl 4 1) 0x0601 with
      | 0 =>
        let es := s.retireEntries (fin8 (field pl 4 1)) list
        let some' := (es.drop (field pl 8 4)).take 63
        .ok (leBytes 4 es.length ++ leBytes 2 some'.length ++ leBytes 2 0 ++ some'.flatten) s
      | e => .no e))

/-! ## SRAM_RETIRE (R152–R155, R413, R483) -/

/-- Frames that an SRAM_RETIRE names: one, or ways 2b and 2b + 1 of every set. -/
def retireTargets (bank : Option (Nat × Nat)) (frame : Nat) : List Nat :=
  match bank with
  | none => [frame]
  | some (_, b) => (List.range 8192).flatMap (fun set => [16 * set + 2 * b, 16 * set + 2 * b + 1])

/-- Refusal of an SRAM_RETIRE (R154, R483), 0 when it may run. A bank on a DIE of 4 or above is an invalid target like one of 8 or above (DESIGN CHOICE: R154
speaks of the bank alone; log entry 59). -/
def State.retireTest (s : State) (k : SliceId) (bank : Option (Nat × Nat)) (frame : Nat) : Nat :=
  let f := (s.slice k).front
  let gone := (f.dir.filter (fun e => e.2.retired)).map (·.1)
  let done := match bank with
    | none => decide (131072 ≤ frame) || gone.contains frame
    | some (d, b) => decide (4 ≤ d ∨ 8 ≤ b) || s.retireList.banks.any (fun x => x.1 = k.val && x.2.2.1 = b)
  if done then 0x0611
  else
    let short := match bank with
      | none => 4 ≤ (gone.filter (fun n => n / 16 = frame / 16)).length
      | some (_, b) => (gone.map (· / 16)).any (fun set => decide (2 < (gone.filter (fun n => n / 16 = set && n % 16 / 2 != b)).length))
    if short || (bank.isNone && decide (1348 ≤ s.retireList.frames.length)) then 0x0610 else 0

/-- SRAM_RETIRE (R152–R154, R413): the target frames are marked, and their dirty lines drain. -/
def execSramRetire (src : Src) (pl : List Byte) (s : State) : Host.Outcome State Fault Refusal :=
  .next (s.vendor src (.sramRetire src pl) pl { VSpec.plain 0xC082 12 (some 1) with bg := true, clash := fun s => s.sliceClash (field pl 4 1) } (fun s =>
    let kind := field pl 5 1
    let bank := if kind = 1 then some (field pl 6 1, field pl 7 1) else none
    let frame := field pl 8 4
    if 1 < kind then .no 0x0205
    else match s.sliceFault (field pl 4 1) 0x0611 with
      | 0 =>
        let k : SliceId := fin8 (field pl 4 1)
        match s.retireTest k bank frame with
        | 0 =>
          let ts := (retireTargets bank frame).filter (fun n => !((s.slice k).front.entry n).retired)
          let s := s.updFront k (fun f => ts.foldl (fun (f : Front) n => f.putEntry n { f.entry n with retired := true }) f)
          .bg (.sramRetire k bank frame ts.length) s
        | e => .no e
      | e => .no e))

/-- SRAM_RETIRE_COMPLETE (R153, R155, R483): the target frames hold nothing dirty any more; they are evicted and recorded. -/
def execSramRetireComplete (k : SliceId) (s : State) : Host.Outcome State Fault Refusal :=
  .next (match s.bgOf (fun b => match b with | .sramRetire q _ _ _ => q == k | _ => false) with
    | none => s
    | some p =>
      match (s.head p).bg with
      | some ⟨.sramRetire _ bank frame count, _, _, _, _, _⟩ =>
        let ts := retireTargets bank frame
        let f := (s.slice k).front
        if s.rst.mgmtDown || s.power.flush != .idle || ts.any (fun n => (f.entry n).present && ((f.entry n).dirty != 0 || (f.entry n).draining || (f.entry n).filling)) then s
        else
          let s := s.updFront k (fun f => ts.foldl (fun (f : Front) n => if (f.entry n).present then f.release n s.beat.now else f) f)
          let r := s.retireList
          let r' : RetireList := match bank with
            | none => { r with frames := r.frames ++ [(k.val, frame, s.beat.now)] }
            | some (d, b) => ⟨r.frames.filter (fun x => !(x.1 = k.val && x.2.1 % 16 / 2 = b)), r.banks ++ [(k.val, d, b, s.beat.now)]⟩
          let s := ({ s with led := { s.led with retire := s.led.retire.put r' } }).store
          let s := if r'.banks.any (fun x => x.1 = k.val) || decide (1024 < (r'.frames.filter (fun x => x.1 = k.val)).length) then s.setReplace 3 else s
          (s.endVendor p .success 0 (leBytes 4 count)).grantCredits
      | _ => s)

/-! ## Resets (R414–R417) -/

/-- SLICE_QUIESCE (R414). -/
def execSliceQuiesce (src : Src) (pl : List Byte) (s : State) : Host.Outcome State Fault Refusal :=
  .next (s.vendor src (.sliceQuiesce src pl) pl { VSpec.plain 0xC090 8 (some 1) with clash := fun s => s.sliceClash (field pl 4 1) } (fun s =>
    if 1 < field pl 5 1 then .no 0x0205
    else match s.sliceFault (field pl 4 1) 0x0405 with
      | 0 =>
        let k : SliceId := fin8 (field pl 4 1)
        let q := if field pl 5 1 = 1 then 0 else if (s.slice k).quiesce = 0 then 1 else (s.slice k).quiesce
        .ok (leBytes 1 0 ++ leBytes 1 q ++ leBytes 2 0) (s.updSlice k (fun x => { x with quiesce := q }))
      | e => .no e))

/-- SLICE_QUIESCED (R414): no budgeted operation is in progress but a drain above the idle watermark. -/
def execSliceQuiesced (k : SliceId) (s : State) : Host.Outcome State Fault Refusal :=
  .next (
    let counts := fun (rq : Rq) => match rq with | .fr | .mx => false | .fw => !s.aboveIdle k | _ => true
    let open' := (s.slice k).chans.toList.any (fun c => c.pace.opOpen.any counts || c.tenures.any (fun t => !t.req.mandatory && counts t.req.rq))
    if (s.slice k).quiesce ≠ 1 || open' then s
    else s.updSlice k (fun x => { x with quiesce := 2, quiescedAt := s.beat.events }))

/-- QUIESCE_TIMEOUT (R414): 2²⁰ beats after it quiesced a slice runs again. -/
def execQuiesceTimeout (k : SliceId) (s : State) : Host.Outcome State Fault Refusal :=
  .next (if (s.slice k).quiesce = 2 && decide ((s.slice k).quiescedAt + 2 ^ 20 ≤ s.beat.events) then s.updSlice k (fun x => { x with quiesce := 0 }) else s)

/-- The slice is a head's own. -/
def Src.owns (src : Src) (k : Nat) : Bool := match src with | .head p => p.val == k | .i3c => false

/-- SLICE_RESET (R415): the slice takes its reach; the command ends when the slice has passed boot step 12. -/
def execSliceReset (src : Src) (pl : List Byte) (s : State) : Host.Outcome State Fault Refusal :=
  .next (s.vendor src (.sliceReset src pl) pl { VSpec.plain 0xC091 8 (some 1) with bg := true, clash := fun s => s.sliceClash (field pl 4 1) } (fun s =>
    let k := field pl 4 1
    if s.nSlices ≤ k then .no 0x0405
    else if Src.owns src k then .no 0x0403
    else if s.stopped (fin8 k) then .no 0x0402
    else if (s.slice (fin8 k)).quiesce ≠ 2 then .no 0x0401
    else .bg (.sliceReset (fin8 k)) (s.source (.slice (fin8 k)) 3)))

/-- A port has no request admitted and uncompleted, and no mailbox command of its head runs (R416). -/
def State.portIdle (s : State) (p : Port) : Bool :=
  (s.head p).inflight.isEmpty && !s.headBusy p && (s.head p).bg.isNone &&
    !s.slices.toList.any (fun x => x.waiting.any (fun r => r.port == p) || x.heldReqs.any (fun h => h.req.port == p))

/-- PORT_RESET (R416). -/
def execPortReset (src : Src) (pl : List Byte) (s : State) : Host.Outcome State Fault Refusal :=
  .next (s.vendor src (.portReset src pl) pl (VSpec.plain 0xC092 8 (some 1)) (fun s =>
    let p := field pl 4 1
    if s.nSlices ≤ p then .no 0x0405
    else if Src.owns src p then .no 0x0403
    else if !s.portIdle (fin8 p) then .no 0x0404
    else .ok [] (s.source (.port (fin8 p)) 3)))

/-- PACKAGE_RESET (R417): asserted 1 ms after this completion has been posted. -/
def execPackageReset (src : Src) (pl : List Byte) (s : State) : Host.Outcome State Fault Refusal :=
  .next (s.vendor src (.packageReset src pl) pl { VSpec.plain 0xC093 8 (some 1) with alone := true } (fun s =>
    let kind := field pl 4 1
    if 1 < kind then .no 0x0205 else .ok [] { s with rst := { s.rst with pkgReset := some (kind == 0) } }))

/-- PACKAGE_RESET_ASSERT (R417, R464). -/
def execPackageResetAssert (s : State) : Host.Outcome State Fault Refusal :=
  .next (match s.rst.pkgReset with
    | none => s
    | some warm => ({ s with rst := { s.rst with pkgReset := none } }).source (if warm then .warm else .mgmt) 3)

/-! ## Records, debug, telemetry and hold-up (R418–R422) -/

/-- BOOT_RECORD_GET (R418). -/
def execBootRecordGet (src : Src) (pl : List Byte) (s : State) : Host.Outcome State Fault Refusal :=
  .next (s.vendor src (.bootRecordGet src pl) pl { VSpec.plain 0xC0A0 4 none with sideband := true } (fun s =>
    .ok (leBytes 4 s.bootProg.count.toNat ++ leBytes 4 0 ++
      s.bootProg.steps.toList.flatMap (fun b => leBytes 1 b.st ++ leBytes 1 b.count ++ leBytes 1 (bitAt b.alt 0) ++ leBytes 1 0 ++ leBytes 8 b.beat.toNat)) s))

/-- Masks and counts cleared, the first failure kept (R419). -/
def RailLog.cleared (r : RailLog) : RailLog :=
  { r with failed := 0, warned := 0, chatter := 0, warnings := Vector.replicate 20 0, faults := Vector.replicate 20 0 }

/-- RAIL_LOG_GET (R419). -/
def execRailLogGet (src : Src) (pl : List Byte) (s : State) : Host.Outcome State Fault Refusal :=
  let clear := decide (field pl 4 1 % 2 = 1)
  .next (s.vendor src (.railLogGet src pl) pl { VSpec.plain 0xC0B0 8 (if clear then some 1 else none) with sideband := true } (fun s =>
    let r := s.railLog
    .ok (leBytes 1 r.first.toNat ++ leBytes 1 r.phase.toNat ++ leBytes 1 r.kind.toNat ++ leBytes 1 0 ++ leBytes 8 r.beat.toNat ++ leBytes 4 r.failed.toNat ++
      leBytes 4 r.warned.toNat ++ leBytes 4 r.chatter.toNat ++
      (List.finRange 20).flatMap (fun i => leBytes 2 (s.power.rails[i]).mv ++ leBytes 1 (r.warnings[i]).toNat ++ leBytes 1 (r.faults[i]).toNat))
      (if clear then s.putRailLog RailLog.cleared else s)))

/-- The alarm of a refused unlock (R75, R420). It concerns no slice: FIRST_SLICE takes the issuing head's number, 0 for the sideband (DESIGN CHOICE: R79
names none; log entry 68). -/
def State.unlockRefused (s : State) (src : Src) : State := s.alarm 5 (match src with | .head p => p.val | .i3c => 0) 0 0

/-- DEBUG_UNLOCK (R354, R420): operand `dbgEn` is the level of DBG_EN. -/
def execDebugUnlock (src : Src) (pl : List Byte) (dbgEn : Bool) (s : State) : Host.Outcome State Fault Refusal :=
  let act := field pl 4 1
  .next (s.vendor src (.debugUnlock src pl dbgEn) pl
    { VSpec.plain 0xC0C0 8 (some 4) with denied := fun s => if act = 1 then s.unlockRefused src else s }
    (fun s =>
      let s := { s with rst := { s.rst with dbgEn := dbgEn } }
      if 1 < act then .no 0x0205
      else if act = 0 then .ok (leBytes 4 0) { s with rst := { s.rst with debugOpen := false } }
      else if dbgEn then .ok (leBytes 4 1) { s with rst := { s.rst with debugOpen := true } }
      else .noWith 0x0104 (s.unlockRefused src)))

/-- TELEMETRY_CONFIG (R421). -/
def execTelemetryConfig (src : Src) (pl : List Byte) (s : State) : Host.Outcome State Fault Refusal :=
  .next (s.vendor src (.telemetryConfig src pl) pl (VSpec.plain 0xC0D0 8 none) (fun s =>
    let sec := field pl 4 2
    if 256 ≤ sec then .no 0x0660
    else match src with
      | .i3c => .no 0x0101
      | .head p =>
        let s := s.updHead p (fun h => { h with tq := { h.tq with sections := BitVec.ofNat 16 sec, enable := decide (field pl 6 1 % 2 = 1) } })
        .ok (leBytes 2 sec ++ leBytes 2 (s.record p).length) s))

/-- HOLDUP_STATUS (R422). -/
def execHoldupStatus (src : Src) (pl : List Byte) (s : State) : Host.Outcome State Fault Refusal :=
  .next (s.vendor src (.holdupStatus src pl) pl { VSpec.plain 0xC0E0 4 none with sideband := true } (fun s =>
    let ds := s.holdRec.downs.take 8
    .ok (leBytes 8 s.regHoldup.toNat ++ leBytes 2 s.profCeiling ++ leBytes 2 s.power.holdCeil ++ leBytes 2 (s.retireCeilLines / 16384) ++ leBytes 2 ds.length ++
      ds.flatMap (fun d => leBytes 2 d.margin ++ leBytes 2 d.flush ++ leBytes 2 d.ceiling ++ leBytes 1 (bitAt d.warm 0) ++ leBytes 1 0 ++ leBytes 8 d.beat.toNat) ++
      leBytes (16 * (8 - ds.length)) 0) s))

end Sys2Proof.Machine
end

