-- ==== Sys2Proof/Machine/Rails.lean ====
section
/-! DEFINITION. The supervised rails: start-up sequence, log, failure and recovery, and the loss of a slice or of the SRAM arrays
(R38, R424–R438). -/

namespace Sys2Proof.Machine

/-! ## The rails (Table 13-1) -/

/-- Nominal voltage of a rail, mV; 0 for the sense input. -/
def railNominal (r : Nat) : Nat :=
  if r < 9 then 750 else ([800, 1050, 800, 1200, 1100, 1100, 900, 1800, 800, 1800, 0][r - 9]?).getD 0

/-- Rails of a start group. -/
def railGroup (n : Nat) : List (Fin 20) :=
  if n = 1 then [8, 15] else if n = 2 then [0, 1, 2, 3, 4, 5, 6, 7, 11, 17] else if n = 3 then [9] else if n = 4 then [10, 12, 13, 14] else []

/-- A rail of this build that the device drives: not those of absent slices, nor VDD_MIO_S where it serves none (R424). -/
def State.driven (s : State) (r : Fin 20) : Bool :=
  (if r.val < 8 then decide (r.val < s.nSlices) else if r = 14 then decide (4 < s.nSlices) else true) &&
    decide (r ≠ 16 ∧ r ≠ 18 ∧ r ≠ 19)

/-- A rail that the supervisor watches: the driven ones and VDD_AUX. -/
def State.supervised (s : State) (r : Fin 20) : Bool := s.driven r || r == 16

/-- Change one rail. -/
def State.updRail (s : State) (r : Fin 20) (f : Rail → Rail) : State := { s with power := { s.power with rails := s.power.rails.set r (f s.power.rails[r]) } }

/-- Drive RAILEN, with the OPERATION command of a rail that has a PMBus address in the same step (R428). -/
def State.driveRail (s : State) (r : Fin 20) (on : Bool) : State :=
  let s := (s.updRail r (fun x => { x with en := on, good := x.good && on })).emit (.pin (.railEn r) on)
  if ((s.power.cfg.pmbus[r.val]?).getD 0).getLsbD 7 then s.emit (.pmbus r on) else s

/-- Phase of the supervisor (R431): 0 start-up, 1 test, 2 recovery, 3 service. -/
def State.phase (s : State) : Nat :=
  if !s.rst.todo.isEmpty then 0 else if s.rst.boundary then 1 else if s.power.rails.toList.any (fun r => r.recovering.isSome) then 2 else 3

/-! ## Rail configuration (R425, Table 15-4) -/

/-- A page holds a valid copy of the rail configuration: header, CRC and every field in range (R478). -/
def railPageOk (m : List Host.Cell) : Bool :=
  let b := fun (i : Nat) => (Mem.read m i).toNat
  let len := leVal (Mem.readAll m 2 2)
  let body := Mem.readAll m 0 len
  b 0 == 5 && b 1 == 1 && decide (16 ≤ len ∧ len ≤ 1024) && leVal (Mem.readAll m 12 4) == crc32c (body.take 12 ++ [0, 0, 0, 0] ++ body.drop 16) &&
    (List.range 18).all (fun r => decide (2 ≤ b (16 + 4 * r) ∧ b (16 + 4 * r) ≤ 10 ∧ 6 ≤ b (17 + 4 * r) ∧ b (17 + 4 * r) ≤ 20 ∧ b (16 + 4 * r) + 2 ≤ b (17 + 4 * r))) &&
    (let h := leVal (Mem.readAll m 88 2); decide (600 ≤ h ∧ h ≤ 950))

/-- SEQUENCE of a rail configuration copy. -/
def railPageSeq (m : List Host.Cell) : BitVec 32 := BitVec.ofNat 32 (leVal (Mem.readAll m 4 4))

/-- Fields of a rail configuration copy. -/
def railPageCfg (m : List Host.Cell) : RailCfg :=
  ⟨Vector.ofFn (fun r => (Mem.read m (16 + 4 * r.val)).toNat), Vector.ofFn (fun r => (Mem.read m (17 + 4 * r.val)).toNat),
   Vector.ofFn (fun r => Mem.read m (18 + 4 * r.val)), leVal (Mem.readAll m 88 2)⟩

/-- The configuration in force for a ledger (R481); the defaults where neither copy is valid. -/
def Ledger.railCfg (l : Ledger) : RailCfg :=
  match railPageOk l.rail8, railPageOk l.rail9 with
  | true, true => if seqLater (railPageSeq l.rail9) (railPageSeq l.rail8) then railPageCfg l.rail9 else railPageCfg l.rail8
  | true, false => railPageCfg l.rail8
  | false, true => railPageCfg l.rail9
  | false, false => RailCfg.default

/-- Both copies are valid, tie and differ (R481). -/
def Ledger.railTied (l : Ledger) : Bool :=
  railPageOk l.rail8 && railPageOk l.rail9 && railPageSeq l.rail8 == railPageSeq l.rail9 &&
    (let n := leVal (Mem.readAll l.rail8 2 2); Mem.readAll l.rail8 0 n != Mem.readAll l.rail9 0 n)

/-! ## Losing a slice (R38, R435) -/

/-- The Local regions of a lost slice become Unavailable with cause 2 until it returns (Table 03-4). -/
def State.loseRegions (s : State) (k : SliceId) : State :=
  (s.desc.filter (fun e => !e.2.spread && e.2.localSlice.toNat == k.val && (e.2.st == .active || e.2.st == .rekeying))).foldl
    (fun s e => s.modDesc e.1 (fun d => { d with st := .unavailable, back := d.st, cause := 2 })) s

/-- A slice is lost: its port stops, its lines are unreachable and its Local regions Unavailable until it returns (Table 03-4). Its
SRAM stays as it is. -/
def State.loseSlice (s : State) (k : SliceId) (viral : Bool) : State :=
  if !s.present k || (s.slice k).st == .lost then s
  else
    let held := decide (s.dirty k ≠ 0)
    -- requests that waited for the lost slice are unreachable requests (R25)
    let s := ((s.slice k).heldReqs.filter (fun h => h.req.port != k)).foldl (fun s h => s.unreachable h.req h.region)
      ((s.endSliceWork k).updSlice k (fun x => { x with heldReqs := x.heldReqs.filter (fun h => h.req.port == k) }))
    let s := s.clearSlice k false
    let s := (s.cutPort k).updHead k Head.disabled
    let s := s.updSlice k (fun x => { x with st := .lost, clkAlive := false, todo := [] })
    let s := match s.bgOf (fun b => b == .sliceReset k) with
      | some p => s.endVendor p .vendorSpecific 0x0402 []
      | none => s
    let s := ((s.loseRegions k).setReplace 1).reroute
    (if viral && held then s.goViral else s).grantCredits

/-- A Local region whose slice has returned leaves Unavailable for Active (Table 03-4). -/
def Desc.returned (d : Desc) : Desc := { d with st := .active, back := .active, cause := 0 }

/-- A region that is Active again goes on from there (Table 03-4): a rekey of it that was interrupted resumes at its REKEY_PTR (R348), or at this start it waits for
its host-supplied key (R340). -/
def State.resumeRegion (s : State) (r : Nat) : State :=
  match SMap.get? s.desc r with
  | none => s
  | some d =>
    if d.st != .active then s
    else if s.ops.rekeys.any (fun x => x.region == r) then s.modDesc r (fun d => { d with st := .rekeying })
    else if d.mode != .clear && s.slotSt d.keyId = 2 then s.modDesc r (fun d => { d with st := .locked })
    else s

/-- The Local regions of a slice that has returned leave Unavailable (Table 03-4). -/
def State.sliceBack (s : State) (k : SliceId) : State :=
  (s.desc.filter (fun e => !e.2.spread && e.2.localSlice.toNat == k.val && e.2.st == .unavailable && e.2.cause == 2)).foldl
    (fun s e => (s.modDesc e.1 Desc.returned).resumeRegion e.1) s

/-! ## Loss of the SRAM arrays (R231, R436) -/

/-- LINE_POISON records straight to the ring in both copies of the reserved area, numbered on from the last record that it holds; each names every line of its
page that is marked. -/
def Media.poisonRing (m : Media) (now : Nat) (pages : List (Nat × BitVec 64)) : Media :=
  let ps := pages.map (fun p => (p.1, m.marks p.1 ||| p.2))
  let last := match m.ring.getLast? with
    | some r => r.seq
    | none => m.mapSeq - m.buffer.length
  let recs := (List.range ps.length).zipWith (fun i p => (⟨last + 1 + i, now, .linePoison p.1 p.2⟩ : MapLog)) ps
  { m with ring := m.ring ++ recs, ringB := m.ringB ++ recs, psnMarks := ps.foldl (fun l p => SMap.put l p.1 p.2) m.psnMarks }

/-- Accepted requests that wait at their ingress slice or at their owner (R101, R157). -/
def State.waitingReqs (s : State) : List Req := s.sliceIds.flatMap (fun j => (s.slice j).waiting ++ (s.slice j).heldReqs.map (·.req))

/-- Lines of the waiting writes that slice k owns. -/
def State.waitingFor (s : State) (k : SliceId) : List Nat :=
  ((s.waitingReqs.filter (·.write)).map (·.dpa / 64)).filter (fun l => s.ownerOf l == some k.val)

/-- An accepted request that waits when the SRAM arrays fail (Table 02-7, R436): a write completes normally, its line recorded as a host write that cannot be
made durable; a read returns poison. -/
def State.sramCut (s : State) (r : Req) : State :=
  let k := (s.ownerOf (r.dpa / 64)).getD 0
  let s := if r.write then s.mediaRecord (some r.port) r.dpa k k 0 0 1 else s
  s.ingressDone r (!r.write)

/-- Lines of a slice that are Dirty or Partial, or wait in its poison list. -/
def Front.poisonable (f : Front) : List Nat := (f.dirtyList.map (·.1) ++ f.poison).eraseDups

/-- Step 1 of R436: credits are withheld and nothing more is accepted. -/
def State.sramDown (s : State) : State := ({ s with power := { s.power with sramLoss := true } }).setReplace 1

/-- Steps 2 and 3 of R436: every slice records its dirty lines as poisoned, and those of accepted writes that wait (Table 04-7), the accepted requests
complete (Table 02-7), and the slice stops and is lost. -/
def State.sramStop (s : State) : State :=
  let s := s.liveSlices.foldl (fun s k =>
    s.updMedia k (fun m => m.poisonRing s.beat.events (s.pageMasks ((s.slice k).front.poisonable ++ s.waitingFor k).eraseDups))) s
  let s := s.waitingReqs.foldl (fun s r => s.sramCut r) s
  let s := s.mapSlices (fun x => { x with waiting := [], heldReqs := [] })
  let s := (s.liveSlices.foldl (fun s k => s.failWaiting k) s).goViral
  s.liveSlices.foldl (fun s k => s.loseSlice k false) s

/-! ## Stopping a start (R474) -/

/-- The status outputs are driven from now on (Table 14-3). -/
def State.statusDriven (s : State) : State :=
  if s.power.statusOut then s
  else (((({ s with power := { s.power with statusOut := true } }).emit (.pin .replaceL s.power.replaceL)).emit (.pin .secAlarmL s.power.secAlarmL)).emit
    (.pin .thermL s.power.thermL))

/-- A start stops: READY clear, the status outputs released, REPLACE_L low, no port enabled. -/
def State.stopStart (s : State) : State :=
  ({ s with rst := { s.rst with stopped := true, ready := false } }).statusDriven.setReplace 6

/-! ## Dependants (Table 13-1, R432–R434) -/

/-- The channels of the slices that a media I/O rail feeds stop until it returns (R434). -/
def State.stopChannels (s : State) (f : SliceId → Bool) : State :=
  s.sliceIds.foldl (fun s k => if f k then s.updSlice k (fun x => { x with chans := mapV x.chans (fun c =>
    if c.up then { c with retraining := true, retrainTries := 0, errBeats := [], lostBeats := [] } else c) }) else s) s

/-- Every relay link of the build. -/
def State.allLinks (s : State) : BitVec 28 := BitVec.ofNat 28 (2 ^ (s.nSlices * (s.nSlices - 1) / 2) - 1)

/-- What stops with a rail. -/
def State.isolate (s : State) (r : Fin 20) : State :=
  if h : r.val < 8 then s.loseSlice ⟨r.val, h⟩ true
  else if r = 8 then s.mgmtLost.releasePending
  else if r = 9 then s.sramDown
  else if r = 10 || r = 15 then s.sliceIds.foldl (fun s k => s.loseSlice k true) s
  else if r = 11 || r = 12 then s.sliceIds.foldl (fun s p => s.portReach p) s
  else if r = 13 then s.stopChannels (fun k => decide (k.val < 4))
  else if r = 14 then s.stopChannels (fun k => decide (4 ≤ k.val))
  else if r = 17 then { s with health := { s.health with links := s.allLinks } }.reroute.grantCredits
  else s

/-! ## Failure (R426, R431–R433, R438) -/

/-- KIND of Table 12-17. -/
def railKind : RailKind → Nat
  | .below => 1
  | .above => 2
  | .pgoodLost => 3
  | .chatter => 4
  | .noComeUp => 5

/-- The rail log of a failure (R438): FAILED, the fault count, CHATTER, and the first-failure fields when armed. -/
def RailLog.failure (l : RailLog) (r : Fin 20) (kind phase : Nat) (beat : BitVec 64) : RailLog :=
  let l := { l with failed := setBit l.failed r.val true, faults := l.faults.set r (satInc l.faults[r]),
                    chatter := if kind = 4 then setBit l.chatter r.val true else l.chatter }
  if l.armed then { l with first := BitVec.ofNat 8 r.val, phase := BitVec.ofNat 8 phase, kind := BitVec.ofNat 8 kind, beat := beat, armed := false } else l

/-- A rail has failed: it is logged and switched off and its dependants stop. In service the failure is recorded on every head and
Replace-Requested set, and the rail enters recovery; in start-up the loss of rail 8, 9 or 15 stops a start that has passed
step 05 (R432, R433, Table 13-2). -/
def State.railFails (s : State) (r : Fin 20) (kind : Nat) : State :=
  let ph := s.phase
  let s := s.putRailLog (fun l => l.failure r kind ph s.beat.now)
  if r = 16 then
    let s := { s with rst := { s.rst with brown := true } }
    s.coldReach (s.coldCauses 2)
  else
    let was := (s.power.rails[r]).recovering
    let s := s.driveRail r false
    let rec' : Option Nat := match was with
      | some n => if n < 3 then some n else none
      | none => if ph = 3 && r != 9 then some 0 else none
    let s := s.updRail r (fun x => { x with failed := true, recovering := rec' })
    let s := if ph = 3 then (s.vendorAll .failure 0x0702 0xFF r.val 0xFF 0 kind ph).setReplace 1 else s
    let s := if was.isSome then s else s.isolate r
    if ph = 0 && (r = 8 || r = 9 || r = 15) && !s.rst.todo.contains 5 then s.stopStart else s

/-! ## Start-up (R429, R430) -/

/-- The sequence of step 04 is due: the step is the next of a start that runs it in its cold form. -/
def State.railStep (s : State) : Bool :=
  s.rst.todo.head? == some 4 && s.rst.coldSteps.contains 4 && !s.rst.stopped && s.power.flush == .idle

/-- COLD_START_PRECONDITION (R429): PWR_FAIL_L high and VDD_HOLD 5 % above HOLD_TRIP for 20 ms. -/
def execColdStartPrecondition (ms : Nat) (s : State) : Host.Outcome State Fault Refusal :=
  .next (if decide (20 ≤ ms) && s.rst.todo.contains 4 && s.rst.coldSteps.contains 4 && s.power.flush == .idle then
      { s with power := { s.power with precond := true } }
    else s)

/-- The rails of a group that have not failed to come up are good. -/
def State.groupGood (s : State) (n : Nat) : State :=
  (railGroup n).foldl (fun s r => s.updRail r (fun x => if x.en && !x.failed then { x with good := true } else x)) s

/-- RAIL_GROUP_ENABLE (R429): every rail of the group before is good or has failed to come up; the next group is enabled. -/
def execRailGroupEnable (s : State) : Host.Outcome State Fault Refusal :=
  .next (
    let n := s.power.group
    if !s.railStep || !s.power.precond || 4 < n then s
    else
      let s := s.groupGood (n - 1)
      let s := ((railGroup n).filter s.driven).foldl (fun s r => s.driveRail r true) s
      { s with power := { s.power with group := n + 1 } })

/-- RAIL_UP_TIMEOUT (R426, R432, R433): a rail enabled for 5 ms without being seen good has failed to come up. -/
def execRailUpTimeout (r : Fin 20) (us : Nat) (s : State) : Host.Outcome State Fault Refusal :=
  .next (
    let x := s.power.rails[r]
    if us < 5000 || !s.driven r || !x.en || x.good || s.power.flush != .idle then s else s.railFails r 5)

/-- Step 04 after a warm or slice reach (R430): a rail not good is handled as a failure to come up, and what hangs on a failed rail
stays stopped. -/
def State.confirmRails (s : State) : State :=
  ((List.finRange 20).filter s.driven).foldl (fun s r =>
    let x := s.power.rails[r]
    if x.failed then s.isolate r else if x.good then s else s.railFails r 5) s

/-! ## Monitoring (R426–R428) -/

/-- RAIL_SAMPLE (R427): the last measured voltage. -/
def execRailSample (r : Fin 20) (mv : Nat) (s : State) : Host.Outcome State Fault Refusal :=
  .next (if s.supervised r then s.updRail r (fun x => { x with mv := mv }) else s)

/-- A voltage lies beyond a level given in 0.5 %. -/
def beyond (nominal mv level : Nat) : Bool := decide (level * nominal < 200 * (nominal - mv) ∨ level * nominal < 200 * (mv - nominal))

/-- The PMBus alert of a rail with an address (R428): STATUS_WORD is read and logged; a transaction that failed, and its retry, is
logged too. -/
def execPmbAlert (r : Fin 20) (word : BitVec 16) (ok : Bool) (s : State) : Host.Outcome State Fault Refusal :=
  .next (if ((s.power.cfg.pmbus[r.val]?).getD 0).getLsbD 7 then
      { s with power := { s.power with pmbLog := SMap.put s.power.pmbLog r.val (if ok then some word else none) } }
    else s)

/-! ## Recovery (R433, Table 13-2) -/

/-- RAIL_RECOVERY_ATTEMPT (R433): 100 ms after the failure, at most three times. -/
def execRailRecoveryAttempt (r : Fin 20) (ms : Nat) (s : State) : Host.Outcome State Fault Refusal :=
  .next (
    let x := s.power.rails[r]
    match x.recovering with
    | some n => if ms < 100 || x.en || 3 ≤ n || s.power.flush != .idle then s
      else (s.updRail r (fun x => { x with recovering := some (n + 1) })).driveRail r true
    | none => s)

/-- The reach on a rail's return. -/
def State.railReach (s : State) (r : Fin 20) : State :=
  if h : r.val < 8 then s.sliceReach ⟨r.val, h⟩
  else if r = 8 then s.mgmtReach
  else if r = 10 || r = 15 then s.warmReach
  else if r = 11 || r = 12 then s.sliceIds.foldl (fun s p => (s.portReach p).lastReach p 4) s
  else if r = 17 then { s with health := { s.health with links := 0, linkFails := [] } }
  else s

/-- RAIL_RECOVERED (R433): good within 5 ms and for 10 ms; the dependants are released through the rail's reach. -/
def execRailRecovered (r : Fin 20) (ms : Nat) (s : State) : Host.Outcome State Fault Refusal :=
  .next (
    let x := s.power.rails[r]
    if ms < 10 || x.recovering.isNone || !x.en || s.power.flush != .idle then s
    else (s.updRail r (fun x => { x with good := true, failed := false, recovering := none })).railReach r)

/-- SRAM_ARRAY_RAIL_LOSS (R436): VDD_SRAM_ARY has failed in service. -/
def execSramArrayRailLoss (s : State) : Host.Outcome State Fault Refusal :=
  .next (
    if s.phase = 0 || s.power.flush != .idle then s
    else
      let s := if s.power.sramLoss then s else s.railFails 9 1
      s.sramStop)

end Sys2Proof.Machine
end

