-- ==== Sys2Proof/Machine/PowerFail.lean ====
section
/-! DEFINITION. The power-fail flush, the hold-up measurement, rail warnings and failures as they meet it, the warm return, and the
thermal monitor with its shutdown (R427, R433, R439–R450, R510–R518). -/

namespace Sys2Proof.Machine

/-! ## The trigger (R439–R442) -/

/-- The device is powered: some rail that it drives is enabled. Before step 04 of a cold start a low PWR_FAIL_L only delays the start
(R429). -/
def State.powered (s : State) : Bool := (List.finRange 20).any (fun r => s.driven r && (s.power.rails[r]).en)

/-- Flush time that the projection gives for the dirty state now (R447), in 1/512 ns. -/
def State.projNow (s : State) : Nat := 220000 * 512 + s.holdRec.q * s.sliceIds.foldl (fun m k => max m (s.maxCost k)) 0 * 5

/-- The flush starts: credit issue stops on every port and the acceptance window opens. -/
def State.startFlush (s : State) (thermal : Bool) : State :=
  if s.power.flush != .idle || !s.powered then s
  else
    let proj := s.projNow
    let s := { s with power := { s.power with flush := .window, thermal := thermal, aborted := false, returned := false,
                                              trigBeat := s.beat.now, projAtTrig := proj } }
    let s := s.mapSlices (fun x => { x with flushed := false })
    s.sliceIds.foldl (fun s k => s.abortResets k) s

/-- POWER_FAIL_TRIGGER (R439): an input held for 200 ns, or a thermal shutdown. -/
def execPowerFailTrigger (t : FlushTrigger) (s : State) : Host.Outcome State Fault Refusal :=
  .next (match t with
    | .pwrFail ns | .hold ns => if ns < 200 then s else s.startFlush false
    | .thermal => if s.power.thermShut then s.startFlush true else s)

/-! ## The end of the flush (R440, R443, R444) -/

/-- Nothing of a slice is left to flush: no accepted write that waits to commit (Table 04-7), no Dirty or Partial line and no record unwritten (R444). -/
def State.nothingLeft (s : State) (k : SliceId) : Bool := decide (s.dirty k = 0) && (s.slice k).media.buffer.isEmpty && (s.waitingFor k).isEmpty

/-- A slice that runs steps 3 to 5. -/
def State.flushing (s : State) (k : SliceId) : Bool := (s.slice k).st == .working

/-- A cold start has not passed step 10: its slices hold nothing of their own yet. -/
def State.beforeTables (s : State) : Bool := s.rst.todo.contains 10 && s.rst.coldSteps.contains 10

/-- A slice counts as flushed when the flush ends (R444, R445). A slice whose cold start has not passed step 10 stays as the record
before, not yet counted, lists it. -/
def State.isFlushed (s : State) (k : SliceId) : Bool :=
  match (s.slice k).st with
  | .working => (s.slice k).flushed || (s.power.aborted && s.nothingLeft k)
  | .lost => s.nothingLeft k
  | _ => s.beforeTables && s.nothingLeft k && (s.shut.counted || !s.shut.unflushed.getLsbD k.val)

/-- Mask of unflushed slices. -/
def State.unflushed (s : State) : BitVec 8 := s.sliceIds.foldl (fun m k => if s.isFlushed k then m else setBit m k.val true) 0

/-- Change the shutdown record. -/
def State.putShut (s : State) (f : ShutRec → ShutRec) : State := { s with led := { s.led with shut := s.led.shut.put (f s.shut) } }

/-- Every rekey pointer goes to the operations record (R443, Table 15-2). -/
def State.saveRekeys (s : State) : State :=
  if s.ops.rekeys.isEmpty then s
  else s.putOps (fun o => { o with rekeys := o.rekeys.map (fun r => match SMap.get? s.desc r.region with
    | some d => { r with ptr := d.rekeyPtr }
    | none => r) })

/-- The root records: CLEAN with the root of each slice that ran steps 3 to 5 to their end (R353), clear for the others. -/
def State.saveRoots (s : State) : State :=
  let old := s.protRecs
  { s with led := { s.led with prot := s.led.prot.put (Vector.ofFn (fun k =>
    let x := s.slices[k]
    if !s.power.aborted && s.flushing k && x.flushed then ⟨x.tree.root, true, x.tree.unver⟩
    else { old[k] with clean := false })) } }

/-- The flush record, the beat counter, rekey pointers and roots go to the ledger SRAM, and the ledger is stored (steps 5 and 6). -/
def State.flushRecord (s : State) : State :=
  let mask := s.unflushed
  let s := s.putShut (fun r => { r with
    result := if s.power.thermal then 3 else if mask = 0 && !s.power.aborted then 1 else 2
    unflushed := mask
    cut := s.power.aborted
    counted := false })
  let s := s.putTime (fun t => { t with l := s.beat.now })
  (s.saveRekeys.saveRoots).store

/-- Rails off in the reverse of Sequence 13-1 (step 7): what they feed is gone; the always-on island stays. -/
def State.powerDown (s : State) : State :=
  let s := ([4, 3, 2, 1].flatMap (fun n => (railGroup n).filter (fun r => s.driven r && (s.power.rails[r]).en))).foldl (fun s r => s.driveRail r false) s
  { s with
    heads := mapV s.heads (fun h => { h.disabled with logs := Vector.replicate 4 Log.reset, dup := [], bg := none, bgLast := none, muted := false, mutedBg := false,
                                                      limits := [], shadow := [], userRead := false, scanResults := [], grantedManage := false })
    slices := mapV s.slices (fun x => { Slice.reset with
      media := x.media.cold
      sramSet := x.sramSet
      samples := x.samples
      sensorFailed := x.sensorFailed
      flushed := x.flushed
      tree := { Tree.reset with pinned := x.tree.pinned, seals := x.tree.seals, top := x.tree.top } })
    desc := []
    index := []
    chunks := []
    firm := s.firm.lost
    rst := { s.rst with todo := allSteps, coldSteps := allSteps, ready := false, stopped := false, pkgReset := none, mgmtDown := false,
                        heldEvents := [], heldLost := [], interrupted := [], pendingSrc := [], debugOpen := false,
                        epochWait := false, failedCh := [] }
    power := { s.power with flush := .off, group := 1, precond := false } }

/-- Each slice keeps its channels busy with PAT_WRITE bursts to the dies' training buffers while the margin is measured (R446). The repeats are emitted
once, with the pattern of training (log entry 81). -/
def State.keepBusy (s : State) : State :=
  (s.sliceIds.filter s.flushing).foldl (fun s k => (List.finRange 16).foldl (fun s j =>
    if !(s.chan k j).up || (s.chan k j).retraining then s
    else ((List.finRange 8).filter (fun d => ((s.chan k j).dies[d]).present && !((s.chan k j).dies[d]).failed)).foldl (fun s d =>
      (s.trainSlot k j d (slotPlain 0x15 d.val)).emit (.burst k j (burstBytes (prbsPattern Config.prbsSeed)))) s) s) s

/-- What follows the store of step 6: a thermal shutdown measures nothing, nor does a flush cut short (R443, R517). -/
def State.afterStore (s : State) : State :=
  if s.power.thermal || s.power.aborted then s.powerDown else { s.keepBusy with power := { s.power with flush := .measure } }

/-- Step 6 begins once every slice that can drain has finished step 5. -/
def State.flushNext (s : State) : State :=
  if s.power.flush == .drain && s.sliceIds.all (fun k => !s.flushing k || (s.slice k).flushed) then s.flushRecord.afterStore else s

/-- ACCEPTANCE_WINDOW_CLOSE (R441): 2 µs after the trigger. -/
def execAcceptanceWindowClose (ns : Nat) (s : State) : Host.Outcome State Fault Refusal :=
  .next (if ns < 2000 || s.power.flush != .window then s
    else ({ s with power := { s.power with flush := .drain } }).flushNext)

/-- FLUSH_SLICE_DONE (R440, R444): a slice has drained its dirty lines and poison list, copied its buffer and written back its dirty
pinned nodes. -/
def execFlushSliceDone (k : SliceId) (s : State) : Host.Outcome State Fault Refusal :=
  .next (
    let x := s.slice k
    if s.power.flush != .drain || !s.present k || !s.flushing k || !s.nothingLeft k || s.poisonDue k ||
        x.tree.dirty.any (fun n => decide (2 ≤ n.level)) then s
    else (s.updSlice k (fun x => { x with flushed := true })).flushNext)

/-- A rail warning, fault or PGOOD loss before step 6 ends the flush at once (R443); a power-down during which the input returned
leaves its flag in the hold-up record (R450), with an open FLUSH_US; a thermal shutdown leaves that record unchanged (R517). -/
def State.abortFlush (s : State) : State :=
  if s.power.flush != .window && s.power.flush != .drain then s
  else
    let s := { s with power := { s.power with aborted := true } }
    let (n, s) := s.draw
    let s := if s.power.returned && !s.power.thermal then { s with led := { s.led with hold := s.led.hold.put { s.holdRec with
        downs := (⟨0, (Config.freeValue n 16).toNat, s.ceilLines / 16384, true, s.power.trigBeat⟩ :: s.holdRec.downs).take 8 } } } else s
    s.flushRecord.afterStore

/-- FLUSH_ABORT (R443). -/
def execFlushAbort (r : Fin 20) (s : State) : Host.Outcome State Fault Refusal := .next (if r = 19 || !s.supervised r then s else s.abortFlush)

/-- RAIL_WARNING (R427): beyond the warning level for 1 µs. In service it is logged, counted and reported to every head. -/
def execRailWarning (r : Fin 20) (mv ns : Nat) (s : State) : Host.Outcome State Fault Refusal :=
  .next (
    if ns < 1000 || !s.supervised r || !beyond (railNominal r.val) mv ((s.power.cfg.warn[r.val]?).getD 6) then s
    else
      let s := if s.phase = 3 && s.power.flush == .idle then
          let s := s.putRailLog (fun l => { l with warned := setBit l.warned r.val true, warnings := l.warnings.set r (satInc l.warnings[r]) })
          s.sliceIds.foldl (fun s p => s.vendorLimited p .warning 0x0701 r.val 0xFF r.val 0 mv 0) s
        else s
      s.abortFlush)

/-- RAIL_FAILURE (R432, R433, R443): a failed rail is handled by phase, and it ends a flush in its first steps. While rails are off
for a shutdown nothing fails. -/
def execRailFailure (r : Fin 20) (kind : RailKind) (s : State) : Host.Outcome State Fault Refusal :=
  .next (
    if !s.supervised r || !(s.power.rails[r]).en then s
    else if r ≠ 16 && s.power.flush != .idle then
      if s.power.flush == .off then s
      else
        let ph := s.phase
        (s.putRailLog (fun l => l.failure r (railKind kind) ph s.beat.now)).abortFlush
    else s.railFails r (railKind kind))

/-! ## Hold-up (R446, R447, R450) -/

/-- Q after a flush (R447): FLUSH_US over the projection, rounded up to 1/256, or the old value when that is larger; never below 1. -/
def newQ (old flushUs proj : Nat) : Nat := max 256 (max old (ceilDiv (flushUs * 1000 * 512 * 256) (max 1 proj)))

/-- HOLDUP_MARGIN_MEASURED (R446, R447, R450): the margin, 20,000 µs at most, and FLUSH_US; the second store and step 7. No margin is
recorded once the input has returned. -/
def execHoldupMarginMeasured (us flushUs : Nat) (s : State) : Host.Outcome State Fault Refusal :=
  .next (
    if s.power.flush != .measure then s
    else
      let h := s.holdRec
      let back := s.power.returned
      let rec1 : HoldRec := { h with
        margin := if back then h.margin else min us 20000
        flush := flushUs
        q := newQ h.q flushUs s.power.projAtTrig
        noMeas := h.noMeas && back }
      let s1 := ({ s with led := { s.led with hold := s.led.hold.put rec1 } }).recomputeCeil
      let down : DownRec := ⟨if back then 0 else min us 20000, flushUs, s1.ceilLines / 16384, back, s.power.trigBeat⟩
      let s := { s1 with led := { s.led with hold := s.led.hold.put { rec1 with downs := (down :: h.downs).take 8 } } }
      s.store.powerDown)

/-- WARM_RETURN (R450, R451): PWR_FAIL_L high and VDD_HOLD recovered, for a time in ms. During a shutdown the return is noted; after
it, 20 ms of it start the device as from a cold power-on. A thermal shutdown is not left so (R518). -/
def execWarmReturn (ms : Nat) (s : State) : Host.Outcome State Fault Refusal :=
  .next (match s.power.flush with
    | .idle => s
    | .off =>
      if s.power.thermShut || ms < 20 then s
      else { s with rst := { s.rst with brown := false } }.coldReach (s.coldCauses (if s.power.returned then 0 else 1))
    | _ => { s with power := { s.power with returned := true } })

/-! ## The thermal monitor (R510–R518) -/

/-- A new sample of the service die's sensor. -/
def State.serviceSample (s : State) (t : Int) : State :=
  let l := (t :: s.power.svcSamples).take 4
  let bad := !s.power.svcFailed && sensorBad l
  let s := { s with power := { s.power with svcSamples := l, svcFailed := s.power.svcFailed || bad } }
  if bad then s.vendorAll .warning 0x0703 0xFF 0xFF 0xFF 0 (BitVec.ofInt 64 t).toNat 0 else s

/-- Critical temperature (R517): THERM_L low and the flush as a thermal trigger, in the same sample. -/
def State.thermalShutdown (s : State) : State :=
  if s.power.thermShut then s
  else match s.tooHot with
    | none => s
    | some (who, t) =>
      let s := { s with power := { s.power with thermShut := true, thermL := false, thermAt := s.beat.events, thermReport := some (who, t) } }
      let s := if s.power.statusOut then s.emit (.pin .thermL false) else s
      s.startFlush true

/-- THERMAL_SAMPLE (R510, R512, R513, R517): readings in 1/8 °C. -/
def execThermalSample (readings : List (Nat × Int)) (service : Int) (s : State) : Host.Outcome State Fault Refusal :=
  .next (if s.power.flush == .off then s else (((s.slicesSample readings).serviceSample service).thermalShutdown).grantCredits)

end Sys2Proof.Machine
end

