-- ==== Sys2Proof/Machine/Recover.lean ====
section
/-! DEFINITION. What boot steps 09 and 10 read back: the media inventory, the replay of the map journal, the region table, the
candidates of interrupted folds, and the directory (R92, R148, R149, R156, R222, R234, R242, R473). -/

namespace Sys2Proof.Machine

/-! ## Inventory (R222, R246, R473) -/

/-- A channel of a slice is in use: not marked absent. -/
def State.chanPresent (s : State) (k : SliceId) (j : Nat) : Bool := !s.mediaRec.absent.any (fun a => a.mc = 16 * k.val + j)

/-- The media configuration that the reserved areas hold: the copy that names most absent channels and failed dies. -/
def State.savedConfig (s : State) : Option MediaRec :=
  s.sliceIds.foldl (fun acc k => match acc, (s.slice k).media.config with
    | some a, some b => if a.absent.length + a.failed.length < b.absent.length + b.failed.length then some b else some a
    | none, x => x
    | a, none => a) none

/-- A die that answered READ_ID as a PLZ-512 (R159): another part is treated as absent. -/
def Die.pliza (d : Die) : Bool := d.present && d.ident.any (fun i => i.part == 0x0512)

/-- Dies of the device's part that answered on a channel. -/
def Chan.found (c : Chan) : Nat := (c.dies.toList.filter Die.pliza).length

/-- Largest population on any present channel of some slices. -/
def State.largest (s : State) (ks : List SliceId) : Nat :=
  ks.foldl (fun n k => (List.finRange 16).foldl (fun n j => if s.chanPresent k j.val then max n (s.chan k j).found else n) n) 0

/-- Good blocks of a bank that the reserved area takes: the ten lowest (R221; the choice is the model's). -/
def reservedOf (bad : List Nat) (bank : Nat) : List Nat := (((List.range 1024).map (fun i => 16 * i + bank)).filter (fun b => !bad.contains b)).take 10

/-- The first inventory of a die: factory-bad blocks retired, the reserved area's blocks taken, and S0 of each bank (R222). -/
def Media.firstInventory (m : Media) (now l c d : Nat) (bad : List Nat) : Media :=
  let cd := c * 8 + d
  let res := decide (d = 0 ∧ c % 8 = 0)
  let m := bad.foldl (fun (m : Media) b => (m.setBlock now c d b { m.block c d b with factoryBad := true }).retire now c d b 1) m
  (List.range 16).foldl (fun (m : Media) bank =>
    let gone := (bad.filter (fun b => b % 16 = bank)).length
    let m := if res then (reservedOf bad bank).foldl (fun (m : Media) b => m.setBlock now c d b { m.block c d b with use := .reserved, mode := 2 }) m else m
    { m with s0 := SMap.put m.s0 (cd * 16 + bank) (1024 - gone - l - 24 - (if res then 10 else 0)) }) m

/-- The first inventory of a slice. -/
def State.inventory (s : State) (k : SliceId) (factoryBad : List (Nat × Nat × Nat × Nat)) : State :=
  if !(s.slice k).media.s0.isEmpty then s
  else s.updMedia k (fun m =>
    ((List.range 16).foldl (fun (m : Media) c => if !s.chanPresent k c then m
      else (List.range s.dies).foldl (fun (m : Media) d =>
        m.firstInventory s.beat.events s.fused.l c d ((factoryBad.filter (fun b => b.1 = k.val ∧ b.2.1 = c ∧ b.2.2.1 = d)).map (·.2.2.2))) m) m).copyBuffer)

/-- Step 09 (R473): the dies of every channel against the count recorded; false where the largest population found is no legal one. -/
def State.mediaInventory (s : State) (ks : List SliceId) (factoryBad : List (Nat × Nat × Nat × Nat)) : Bool × State :=
  let s := match s.led.media.cur, s.savedConfig with
    | none, some r => ({ s with led := { s.led with media := s.led.media.put r } }).store
    | _, _ => s
  let n := if s.dies = 0 then s.largest ks else s.dies
  if n ≠ 2 ∧ n ≠ 4 ∧ n ≠ 8 then (false, s)
  else
    let s := if s.dies = 0 then (s.putMediaRec (fun r => { r with dies := n })).store else s
    let s := ks.foldl (fun s k => (List.finRange 16).foldl (fun s j =>
      if !s.chanPresent k j.val then s.updChan k j (fun c => { c with up := false })
      else (List.finRange 8).foldl (fun s d =>
        if n ≤ d.val then s.updChan k j (·.updDie d (fun x => { x with present := false }))
        else if (s.slice k).media.deadDies.contains (j.val * 8 + d.val) then s.updChan k j (·.updDie d (fun x => { x with failed := true }))
        else if ((s.chan k j).dies[d]).pliza then s
        else (s.updChan k j (·.updDie d (fun x => { x with present := false }))).dieFailed k j d) s) s) s
    (true, ks.foldl (fun s k => ((s.lensDefaults k).inventory k factoryBad).updSlice k (fun x => { x with st := .rebuilding, front := { x.front with tabled := true } })) s)

/-! ## Replay (R234) -/

/-- A generation, modulo 2¹⁶, or a SEQ, modulo 2⁴⁸, is later (R224). -/
def genLater {w : Nat} (a b : BitVec w) : Bool := seqLater a b

/-- Bring SEQ up to a value read back. -/
def Media.seqTo (m : Media) (q : BitVec 48) : Media := if genLater q m.seq then { m with seq := q } else m

/-- One map journal record applied to the tables: each sets absolute values (R232). REGION records are read apart. -/
def Media.replay (m : Media) (r : MapLog) : Media :=
  match r.rec' with
  | .foldOpen key blk gen seq =>
    let e := m.entry key
    let c := key / 2 ^ 17
    let f : FoldMember := ⟨fin8 (key / 2 ^ 14), key, blk, if e.st == .mapped then some e.phys else none, gen, seq, 0, 0, 0, [], false, 0, []⟩
    ({ m with bmap := SMap.put m.bmap key { e with folding := true, drainGen := gen + 1 },
              folds := SMap.put m.folds c ((m.foldSet c).filter (fun (g : FoldMember) => g.key != key) ++ [f]) }).seqTo seq
  | .foldCommit key blk _ gen beat =>
    let e := m.entry key
    let x := m.block (key / 2 ^ 17) (key / 2 ^ 14 % 8) blk
    { m.putBlock (key / 2 ^ 17) (key / 2 ^ 14 % 8) blk { x with use := .data, beat := beat } with
      bmap := SMap.put m.bmap key { e with phys := blk, blockGen := gen, st := .mapped, folding := false }
      overlay := m.overlay.filter (fun o => !(decide (o.1 / 1024 = key) && !genLater o.2.gen gen))
      folds := m.folds.map (fun c => (c.1, c.2.filter (fun g => g.key != key))) }
  | .foldAbandon key _ =>
    { m with bmap := SMap.modify m.bmap key (fun e => { e with folding := false }),
             folds := m.folds.map (fun c => (c.1, c.2.filter (fun g => g.key != key))) }
  | .blockRelease c d b => m.putBlock c d b { m.block c d b with use := if (m.block c d b).use == .retired then .retired else .released }
  | .blockState c d b x =>
    let m := m.putBlock c d b { x with freed := 0 }
    let j := m.journal (c * 8 + d)
    if x.use == .journal && !j.ring.contains b then
      { m with journals := SMap.put m.journals (c * 8 + d) { j with ring := j.ring ++ [b], ahead := j.ahead.filter (· != b), fresh := j.fresh ++ [b], headPage := 0 } }
    else { m with journals := SMap.put m.journals (c * 8 + d) { j with fresh := j.fresh.filter (· != b) } }
  | .blockRetire c d b cause => m.putBlock c d b { m.block c d b with use := .retired, cause := cause }
  | .overlaySet p e =>
    let cd := p / 2 ^ 24
    let j := m.journal cd
    let m := if e.kind == .zero && e.sectors == 0 then m
      else if j.ring.getLast? = some e.jblock then { m with journals := SMap.put m.journals cd { j with headPage := max j.headPage (e.jpage + 1) } } else m
    ({ m with overlay := SMap.put m.overlay p { e with captured := false } }).seqTo e.seq
  | .overlayClear p => { m with overlay := SMap.del m.overlay p }
  | .mapEntry key e => { m with bmap := SMap.put m.bmap key e }
  | .ring cd b join =>
    let j := m.journal cd
    { m with journals := SMap.put m.journals cd (if join then { j with ahead := j.ahead.filter (· != b) ++ [b] }
      else { j with ring := j.ring.filter (· != b), ahead := j.ahead.filter (· != b), failed := j.failed.filter (· != b) }) }
  | .linePoison p mask => { m with psnMarks := if mask = 0 then SMap.del m.psnMarks p else SMap.put m.psnMarks p mask }
  | .region _ _ _ _ _ | .checkpoint _ _ => m

/-- A ring copy without the records whose CRC fails. -/
def ringKept (ring : List MapLog) (bad : List Nat) : List MapLog := ring.filter (fun r => !bad.contains r.seq)

/-- The newer checkpoint that a ring copy's records make valid (R233, R234). -/
def Media.newerCheckpoint (m : Media) (ring : List MapLog) : Option Checkpoint :=
  let ok := fun (area : Bool) (ck : Option Checkpoint) => ck.filter (fun c => ring.any (fun r => r.rec' == .checkpoint area c.seq))
  match ok true m.ckA, ok false m.ckB with
  | some a, some b => if a.seq < b.seq then some b else some a
  | some a, none => some a
  | none, b => b

/-- Records of a ring copy in MAP_SEQ order from the one after `seq`, up to the first gap. -/
def ringRun (seq : Nat) : List MapLog → List MapLog
  | [] => []
  | r :: rs => if r.seq = seq + 1 then r :: ringRun (seq + 1) rs else if r.seq ≤ seq then ringRun seq rs else []

/-- What one ring copy gives a cold start: the checkpoint, and the records with later MAP_SEQ up to the first gap or bad CRC (R234). -/
def Media.copyGives (m : Media) (ring : List MapLog) (bad : List Nat) : Option Checkpoint × List MapLog :=
  let kept := ringKept ring bad
  let ck := m.newerCheckpoint kept
  (ck, ringRun ((ck.map (·.seq)).getD 0) kept)

/-- The tables after a cold start (R234): the newer valid checkpoint and the later records, from the ring copy with more contiguous valid records, the first on
a tie. Both ring copies go on from there. -/
def Media.restore (m : Media) (badA badB : List Nat) : Media :=
  let a := m.copyGives m.ring badA
  let b := m.copyGives m.ringB badB
  let useB := decide (a.2.length < b.2.length)
  let (ck, run) := if useB then b else a
  let kept := if useB then ringKept m.ringB badB else ringKept m.ring badA
  let seq0 := (ck.map (·.seq)).getD 0
  let base : Media := match ck with
    | none => m
    | some ck => { m with bmap := ck.bmap, overlay := ck.overlay.map (fun e => (e.1, { e.2 with captured := false })), blocks := ck.blocks, journals := ck.journals }
  let base := base.overlay.foldl (fun (m : Media) e => m.seqTo e.2.seq) base
  let ring := kept.filter (fun r => decide (r.seq ≤ seq0)) ++ run
  let m := run.foldl (fun (m : Media) r => m.replay r) base
  { m with ring := ring, ringB := ring, mapSeq := seq0 + run.length }

/-- The head block of each journal takes no further page: which of its pages behind the last one named were written before the loss is not known, and a page is
written only once between two resets (R226; DESIGN CHOICE, log entry 96). -/
def Media.closeHeads (m : Media) : Media := { m with journals := m.journals.map (fun j => (j.1, if j.2.ring.isEmpty then j.2 else { j.2 with headPage := 512 })) }

/-- A journal page that a tag names applies (R224, R225, R234): it replaces an older entry, and its block belongs to the journal. -/
def Media.applyPage (m : Media) (now cd jblock jpage : Nat) (t : PageTag) : Media :=
  let key := t.key / 1024
  let e := m.entry key
  let newer := match SMap.get? m.overlay t.key with | some o => genLater t.seq o.seq | none => true
  let x := m.block (cd / 8) (cd % 8) jblock
  let m := if x.use == .journal || x.use == .retired then m
    else m.setBlock now (cd / 8) (cd % 8) jblock { x with use := .journal, mode := 2, beat := t.beat }
  let j := m.journal cd
  let j : Journal := if j.ring.contains jblock then j else { j with ring := j.ring ++ [jblock], ahead := j.ahead.filter (· != jblock), headPage := 0 }
  let j : Journal := if j.ring.getLast? = some jblock then { j with headPage := max j.headPage (jpage + 1) } else j
  let m := { m with journals := SMap.put m.journals cd j }
  let m := m.seqTo t.seq
  if genLater t.gen e.blockGen && newer && e.st != .dead then
    let kind : OvKind := if t.flags % 4 = 1 then .zero else if t.flags % 4 = 2 then .poison else .block
    let m := m.setOverlay now t.key ⟨jblock, jpage, t.sectors, kind, false, t.gen, t.seq⟩
    if genLater t.gen e.drainGen then m.setMap now key { e with drainGen := t.gen } else m
  else m

/-- A journal page tag as it was read after an incomplete flush (R169, R223, R234): one that is erased, fails its check, or is of another type or die holds no
page. -/
def Media.applyTag (m : Media) (now : Nat) (t : TagScan) : Media :=
  match (readTag t.tag).map PageTag.ofBytes with
  | some p => if p.type = 0x1A && decide (p.key / 2 ^ 24 = t.cd) then m.applyPage now t.cd t.jblock t.jpage p else m
  | none => m

/-- The last shutdown's flush did not complete, or none ran (R234, R444, R452). One that was ended before its step 6 did not (DEDUCED, log entry 102). -/
def State.incomplete (s : State) : Bool := s.shut.unflushed != 0 || s.shut.result == 2 || s.shut.cut || s.rst.brown

/-! ## Candidates of interrupted folds (R242) -/

/-- The tag of a candidate's page 0 reads as a data page (R242). -/
def FoldScan.data (y : FoldScan) : Bool := ((readTag y.first).map PageTag.ofBytes).any (fun t => t.type = 0x2D)

/-- A candidate is closed (R242): the tags of its pages 0 and 1,023 agree on K, SEQ and GEN, and page 1,023 has LAST set. Answers the tag of page 1,023. -/
def FoldScan.closed (y : FoldScan) : Option PageTag :=
  match (readTag y.first).map PageTag.ofBytes, (readTag y.last).map PageTag.ofBytes with
  | some a, some b =>
    if a.type = 0x2D ∧ b.type = 0x2D ∧ a.key / 1024 = b.key / 1024 ∧ a.seq = b.seq ∧ a.gen = b.gen ∧ b.flags % 2 = 1 then some b else none
  | _, _ => none

/-- Blocks that step 10 decides: open folds, blocks that an open fold set names, and after an incomplete flush the ready and released
2-bit blocks whose page 0 reads as a data page. -/
def State.candidates (s : State) (k : SliceId) (scans : List FoldScan) (stray : Bool) : List (Nat × Nat × Nat) :=
  let m := (s.slice k).media
  let opens := (m.blocks.filter (fun b => b.2.use == .openFold)).map (fun b => (b.1 / 131072, b.1 / 16384 % 8, b.1 % 16384))
  let named := m.folds.flatMap (fun c => c.2.map (fun f => (c.1, f.die.val, f.blk)))
  let others := if stray then (scans.filter (fun x => decide (x.slice = k.val) && FoldScan.data x &&
      (let b := m.block x.chan x.die x.blk; b.mode == 1 && (b.use == .ready || b.use == .released)))).map (fun x => (x.chan, x.die, x.blk)) else []
  (opens ++ named ++ others).eraseDups

/-- A page's image as its codewords decode; none where one does not. -/
def PageRead.image (p : PageRead) : Option (BitVec 40960) :=
  let ds := (List.range 64).map (fun i => match p.cws[i]?.map cwRead with | some (.good x _) => some (cwEncode x) | _ => none)
  if ds.all (·.isSome) then some (pageImage (sectorBytes (ds.filterMap id))) else none

/-- A page of an unverified row as the row's other pages and its parity give it (R236, Table 08-7 step 3): none where no parity of the row survives, or another
page of the row cannot be read. -/
def Media.rowRecover (m : Media) (scans : List FoldScan) (y : FoldScan) (row : Nat) : Option (BitVec 40960) :=
  let mine := fun (f : FoldMember) => f.blk == y.blk && f.die.val == y.die
  let held := (m.foldSet y.chan).filter (fun f => f.images.any (fun x => x.1 = row))
  if !held.any mine then none
  else (held.filter (fun f => !mine f)).foldl (fun acc f =>
    match acc, (scans.find? (fun z => z.slice = y.slice ∧ z.chan = y.chan ∧ z.die = f.die.val ∧ z.blk = f.blk)).bind (fun z => z.rows[row]?.bind PageRead.image) with
    | some a, some b => some (a ^^^ b)
    | _, _ => none) (m.rowParity y.chan row)

/-- A row of a closed candidate verifies (R238, R242): its page passes, or with a valid tag is recovered from its row. -/
def Media.rowVerified (m : Media) (scans : List FoldScan) (y : FoldScan) (row : Nat) : Bool :=
  match y.rows[row]? with
  | none => false
  | some p => pagePasses 0xFFFF p || ((readTag p.tag).isSome && (match m.rowRecover scans y row with
      | some x => (List.range 64).all (fun i => match cwRead (x.extractLsb' (640 * i) 640) with | .good _ _ => true | _ => false)
      | none => false))

/-- Every row of a closed candidate verifies. -/
def Media.scanVerified (m : Media) (scans : List FoldScan) (y : FoldScan) : Bool := (List.range 1024).all (m.rowVerified scans y)

/-- Decide one candidate: committed when it is closed, verified under what `m` held of its row parity, and later than K's generation; released otherwise. -/
def State.decideFold (s : State) (k : SliceId) (m : Media) (scans : List FoldScan) (x : Nat × Nat × Nat) : State :=
  let (c, d, b) := x
  let bl := (s.slice k).media.block c d b
  let drop := fun (suspect : Bool) =>
    if bl.use == .retired then s
    else if suspect && bl.suspect then s.retireBlock k c d b 4
    else s.updMedia k (fun m => (if suspect then m.setBlock s.beat.events c d b { bl with suspect := true } else m).release s.beat.events c d b)
  match scans.find? (fun y => y.slice = k.val ∧ y.chan = c ∧ y.die = d ∧ y.blk = b) with
  | none => drop false
  | some y =>
    match FoldScan.closed y with
    | none => drop false
    | some t =>
      let key := t.key / 1024
      let e := (s.slice k).media.entry key
      let verified := m.scanVerified scans y
      if verified && genLater t.gen e.blockGen && e.st != .dead && decide (key / 2 ^ 14 = c * 8 + d) then
        s.commitFold k c d key b (if e.st == .mapped then some e.phys else none) t.gen t.beat (t.flags / 4 % 2 = 1) (fun o => !genLater o.gen t.gen)
      else drop (!verified)

/-- The reads that step 09 made of a closed candidate count against its block (R244): every sector of every row. -/
def State.countScan (s : State) (k : SliceId) (scans : List FoldScan) (x : Nat × Nat × Nat) : State :=
  match scans.find? (fun y => y.slice = k.val ∧ y.chan = x.1 ∧ y.die = x.2.1 ∧ y.blk = x.2.2) with
  | some y => if (FoldScan.closed y).isSome then s.bumpRead k (ch16 x.1) x.2.1 x.2.2 (16 * y.rows.length) else s
  | none => s

/-- FOLDING and CAPTURED end with their folds, each recorded. -/
def Media.endFolds (m : Media) (now : Nat) : Media :=
  let m := (m.bmap.filter (fun e => e.2.folding)).foldl (fun (m : Media) e =>
    let blk := ((m.folds.flatMap (·.2)).find? (fun f => f.key = e.1)).map (·.blk)
    m.abandonFold now e.1 (blk.getD 0)) m
  { m with folds := [] }

/-- Ring blocks but a die's head that hold no live page: channel · 8 + die, block. -/
def Media.emptyRing (m : Media) : List (Nat × Nat) :=
  m.journals.flatMap (fun j => (j.2.ring.dropLast.filter (fun b => (m.livePages (j.1 / 8) (j.1 % 8) b).isEmpty)).map (fun b => (j.1, b)))

/-- Every data or journal block that no map entry or ring names is released, and every ring block that holds no live page leaves its ring (R242, Table 07-7). -/
def State.releaseUnnamed (s : State) (k : SliceId) : State :=
  let s := (s.slice k).media.emptyRing.foldl (fun s x => s.leaveRing k (x.1 / 8) (x.1 % 8) x.2) s
  let m := (s.slice k).media
  let loose := m.blocks.filter (fun x =>
    let cd := x.1 / 16384
    let b := x.1 % 16384
    (x.2.use == .data && !m.bmap.any (fun e => decide (e.1 / 2 ^ 14 = cd) && e.2.st == .mapped && e.2.phys == b)) ||
      (x.2.use == .journal && !(m.journal cd).ring.contains b))
  loose.foldl (fun s x => s.releaseBlock k (x.1 / 131072) (x.1 / 16384 % 8) (x.1 % 16384) false) s

/-- The recovery of step 10 from interrupted folds. -/
def State.recoverFolds (s : State) (k : SliceId) (scans : List FoldScan) (stray : Bool) : State :=
  let xs := s.candidates k scans stray
  let m := (s.slice k).media
  let s := (xs.foldl (fun s x => s.countScan k scans x) s)
  let s := xs.foldl (fun s x => s.decideFold k m scans x) s
  (s.updMedia k (·.endFolds s.beat.events)).releaseUnnamed k

/-! ## The region table (R86, R92) -/

/-- What a REGION record says: the descriptor, its index entries, CREATED_BEAT and GENERATION. -/
abbrev RegionSaid := Option Desc × List (Nat × Nat) × BitVec 64 × BitVec 32

/-- The record of a region is later than another (R92): by GENERATION; of two lives of one region number, by CREATED_BEAT; and REKEY_PTR, which leaves GENERATION
as it is, where they tie (DEDUCED; log entry 85). -/
def RegionSaid.later (a b : RegionSaid) : Bool :=
  let ptr := fun (x : RegionSaid) => (x.1.map (·.rekeyPtr)).getD 0
  decide (b.2.2.1 < a.2.2.1 ∨ (a.2.2.1 = b.2.2.1 ∧ (b.2.2.2 < a.2.2.2 ∨ (a.2.2.2 = b.2.2.2 ∧ ptr b < ptr a))))

/-- What a slice's own map journal says of the regions: the last record of each. -/
def Media.regionView (m : Media) : SMap RegionSaid :=
  ((if m.ringB.length ≤ m.ring.length then m.ring else m.ringB) ++ m.buffer).foldl (fun (v : SMap RegionSaid) r => match r.rec' with
    | .region n d ix born gen => SMap.put v n (d, ix, born, gen)
    | _ => v) []

/-- The region table of some slices: for each region the later of the records that they hold (R92). -/
def State.rebuildRegions (s : State) (ks : List SliceId) : State :=
  let best := ks.foldl (fun (v : SMap RegionSaid) k =>
    (s.slice k).media.regionView.foldl (fun (v : SMap RegionSaid) e => match SMap.get? v e.1 with
      | some old => if RegionSaid.later e.2 old then SMap.put v e.1 e.2 else v
      | none => SMap.put v e.1 e.2) v) []
  best.foldl (fun s e => match e.2.1 with
    | none => s
    | some d => { s with desc := SMap.put s.desc e.1 d, index := e.2.2.1.foldl (fun ix g => SMap.put ix g.1 ⟨e.1, g.2⟩) s.index }) { s with desc := [], index := [] }

/-- A slice that has been lost drops the regions destroyed meanwhile, under its own view of them, and takes up the records it missed
(R92). Its seal space went with their destruction; its tree top goes now where no Sealed region is left. -/
def State.catchUp (s : State) (k : SliceId) : State :=
  let view := (s.slice k).media.regionView
  let gone := view.filterMap (fun e => match e.2.1 with
    | none => none
    | some d => match SMap.get? s.desc e.1 with
      | some now => if now.beat = d.beat then none else some (e.1, d, e.2.2.1)
      | none => some (e.1, d, e.2.2.1))
  let s := gone.foldl (fun (s : State) g =>
    s.dropRegion { s with desc := [(g.1, g.2.1)], index := g.2.2.map (fun e => (e.1, (⟨g.1, e.2⟩ : IndexEntry))) } k g.1) s
  let s := if gone.isEmpty then s else s.releaseTop k
  let names := (view.map (·.1) ++ s.desc.map (·.1)).eraseDups
  names.foldl (fun s r =>
    let ix := (s.index.filter (fun e => e.2.region = r)).map (fun e => (e.1, e.2.unitBase))
    let had := SMap.get? view r
    match SMap.get? s.desc r with
    | some d => if had.any (fun h => h.1 == some d) then s else s.logRegion k r (some d) ix d.beat d.gen
    | none => match had with
      | some (some d, _, _, _) => s.logRegion k r none [] d.beat (d.gen + 1)
      | _ => s) s

/-! ## The directory (R120, R148, R149, R156) -/

/-- Frames that the retire list names: each frame, and ways 2b and 2b + 1 of every set for a bank (R152). -/
def State.retiredFrames (s : State) (k : SliceId) : List Nat :=
  let r := s.retireList
  ((r.frames.filter (fun x => x.1 = k.val)).map (·.2.1) ++ (r.banks.filter (fun x => x.1 = k.val)).flatMap (fun x => retireTargets (some (x.2.1, x.2.2.1)) 0)).eraseDups

/-- Of the frames whose headers name one segment, in its set or in another, all but the copy with the later SEQUENCE, which is kept (R156). Each is lost as
under R149 (the rule that R156 names is stale: DEDUCED; log entry 69). -/
def Front.misplaced (f : Front) (retired : List Nat) : List Nat :=
  (f.frames.foldl (fun (acc : List (Nat × Nat × BitVec 32) × List Nat) e =>
    let h := e.2.hdrB
    if !h.present || retired.contains e.1 then acc
    else match acc.1.find? (fun x => x.1 = h.seg) with
      | none => (acc.1 ++ [(h.seg, e.1, h.seq)], acc.2)
      | some x => if seqLater h.seq x.2.2 then ((acc.1.filter (fun y => y.1 != h.seg)) ++ [(h.seg, e.1, h.seq)], acc.2 ++ [x.2.1]) else (acc.1, acc.2 ++ [e.1]))
    ([], [])).2

/-- The rebuild of a slice's directory and spill index (R156); false where a frame or a spill record cannot be identified at all. -/
def State.rebuildFront (s : State) (k : SliceId) (headers : List (Nat × HdrRead)) (shadows : List (Nat × Nat)) (records : List (Nat × SpillRead)) : Bool × State :=
  let skip := s.retiredFrames k
  let found := (headers.filter (fun x => x.1 = k.val && !skip.contains x.2.frame)).map (·.2)
  let ns := (((s.slice k).front.frames.map (·.1) ++ found.map (·.frame)).filter (fun n => !skip.contains n)).eraseDups
  let unread := (shadows.filter (fun x => x.1 = k.val)).map (·.2)
  match s.readHeaders k ns found unread with
  | (false, s) => (false, s)
  | (true, s) => match s.readSpill k ((records.filter (fun x => x.1 = k.val)).map (·.2)) with
    | (false, s) => (false, s)
    | (true, s) =>
      let others := (s.slice k).front.misplaced skip
      match others.find? (fun n => unread.contains n) with
      | some n => (false, s.vendorAll .fatal 0x0201 k.val 0xFF 0xFF 0 n 0)
      | none => (true, (others.foldl (fun s n => s.frameLost k n) s).updFront k (·.rebuild skip))

/-- A pinned descriptor is in the slice's cache again (R100, R102). -/
def State.reloadPinned (s : State) (k : SliceId) : State :=
  (s.desc.filter (fun e => e.2.pin)).foldl (fun s e => s.updSlice k (fun x => if x.cacheOn then x.cacheLoad x.cacheVictim e.1 (some e.2) else x)) s

end Sys2Proof.Machine
end

