-- ==== Sys2Proof/Machine/BootTables.lean ====
section
/-! DEFINITION. Boot step 10: the tables, the regions, the keys, the counter trees and the front store restored, and what the start
writes back (R51, R92, R156, R234, R263, R338, R340, R353, R393, R491, R517, R563). -/

namespace Sys2Proof.Machine

/-! ## Tables of a cold start -/

/-- What a failed die or an absent channel takes from the tables (R98, R247). -/
def Media.without (m : Media) (absent : List Nat) : Media :=
  { m with
    overlay := m.overlay.filter (fun e => !m.deadDies.contains (e.1 / 2 ^ 24) && !absent.contains (e.1 / 2 ^ 27))
    bmap := m.bmap.filter (fun e => !absent.contains (e.1 / 2 ^ 17))
    blocks := m.blocks.map (fun b => if m.deadDies.contains (b.1 / 16384) && b.2.use != .retired then (b.1, { b.2 with use := .retired, cause := 7 }) else b) }

/-- Absent channels of a slice. -/
def State.absentChans (s : State) (k : SliceId) : List Nat := (s.mediaRec.absent.filter (fun a => a.mc / 16 = k.val)).map (fun a => a.mc % 16)

/-- The tables of a slice as the ring and the checkpoints give them (R234), less what failed dies and absent channels held. -/
def State.replayMedia (s : State) (k : SliceId) (o : BootOutcome) : State :=
  let bad := fun (l : List (Nat × Nat)) => (l.filter (fun x => x.1 = k.val)).map (·.2)
  s.updMedia k (fun m => (m.restore (bad o.badRing) (bad o.badRingB)).without (s.absentChans k))

/-- The tables of a slice read back (R234), with the journal tags after an incomplete flush; the blocks that hold data are in their dies' bands (R220). -/
def State.restoreMedia (s : State) (k : SliceId) (o : BootOutcome) : State :=
  let s := s.replayMedia k o
  let s := if s.incomplete then s.updMedia k (fun m => (o.tags.filter (fun t => t.slice = k.val)).foldl (fun (m : Media) t => m.applyTag s.beat.events t) m) else s
  let s := s.updMedia k (·.closeHeads)
  (List.finRange 16).foldl (fun s j => (List.finRange 8).foldl (fun s d =>
    let die := (s.chan k j).dies[d]
    if die.present && !die.failed then s.raiseTempMax k j d die.band else s) s) s

/-- Lines that LINE_POISON records name go back to the poison list, to be drained (R231). -/
def State.restorePoison (s : State) (k : SliceId) : State :=
  let ls := (s.slice k).media.psnMarks.flatMap (fun p => (List.range 64).filterMap (fun i => if p.2.getLsbD i then s.lineOfPage k p.1 i else none))
  s.updFront k (·.addPoison ls)

/-! ## Regions, keys and roots of a cold start -/

/-- A discard that the reset did not carry over leaves its region in the state it came from (Table 14-5). -/
def State.dropStale (s : State) : State :=
  s.desc.foldl (fun s e => if e.2.st == .discarding && !s.discards.any (fun d => d.region = e.1) then s.modDesc e.1 (fun d => { d with st := d.back }) else s) s

/-- The key slots of a cold start (R336, R338, R485): host-supplied keys Absent, device-held ones unwrapped, quarantines kept. -/
def State.loadKeys (s : State) (bad : List Nat) : State :=
  s.keyRecs.foldl (fun s e =>
    let n := e.1
    let r := e.2
    if r.st = 3 then { s with keys := SMap.put s.keys n ⟨3, false, 0, 0, 0, s.beat.events⟩ }
    else if !r.dev then { s with keys := SMap.put s.keys n ⟨2, false, 0, 0, r.kcv, 0⟩ }
    else match (if bad.contains n then none else kwUnwrap (leNats 32 s.fused.rootKey.toNat) (r.wrapped.map BitVec.toNat)) with
      | some kb =>
        let key : BitVec 512 := BitVec.ofNat 512 (leNat kb)
        { s with keys := SMap.put s.keys n ⟨1, true, key, macKeyOf key, r.kcv, 0⟩ }
      | none => s.vendorAll .failure 0x0505 0xFF 0xFF 0xFF 0 n 0) { s with keys := [] }

/-- A region that names an Empty slot is Unavailable with cause 3 (R338, Table 15-2). -/
def State.keylessRegions (s : State) : State :=
  s.desc.foldl (fun s e =>
    let d := e.2
    let empty := (d.mode != .clear && s.slotSt d.keyId = 0) || (d.st == .rekeying && s.slotSt d.newKey = 0)
    if empty && !(d.st == .unavailable && d.cause == 3) then s.modDesc e.1 Desc.keyLost else s) s

/-- A region that waits for its host key: Active becomes Locked, and so does the state a region will return to (R340). -/
def Desc.lock (d : Desc) : Desc :=
  if d.st == .active then { d with st := .locked }
  else if d.back == .active && (d.st == .discarding || (d.st == .unavailable && d.cause == 2)) then { d with back := .locked }
  else d

/-- Regions that name a host-supplied slot (R340). -/
def State.lockRegions (s : State) : State :=
  s.desc.foldl (fun s e =>
    let d := e.2
    if d.mode != .clear && s.slotSt d.keyId = 2 && d.lock != d then s.modDesc e.1 Desc.lock else s) s

/-- What the reload makes of a pinned node (R350, R353). -/
inductive NodeSays where
  | held (node : Line)
  | tampered
  | unreadable
deriving DecidableEq, Repr

/-- The decodes of a node's ladder against the counter above it (Table 10-8): a failed check with 4 or more bits corrected is a failed decode. -/
def State.nodeTries (s : State) (k : SliceId) (level idx : Nat) (parent : BitVec 64) : List CwRead → NodeSays
  | [] => .unreadable
  | .good i c :: ts => if s.nodeOk k level idx parent i then .held (infoData i) else if 4 ≤ c then s.nodeTries k level idx parent ts else .tampered
  | _ :: ts => s.nodeTries k level idx parent ts

/-- A node that is suspect. -/
def State.addSuspect (s : State) (k : SliceId) (level idx : Nat) : State :=
  s.updSlice k (fun x => { x with tree := { x.tree with suspect := if x.tree.suspect.contains (level, idx) then x.tree.suspect else (level, idx) :: x.tree.suspect } })

/-- Reload one pinned node from its home (R353): checked against the counter above it, and handled as Table 10-8 says where it fails. Below a node that is
unverifiable nothing is checked; below one that failed its check it is left to later reads. -/
def State.loadNode (s : State) (k : SliceId) (x : NodeRead) : State :=
  let t := (s.slice k).tree
  let line := treeLine k.val x.level x.idx
  if t.unver.any (fun n => decide (x.level < n.1 ∧ x.idx / 8 ^ (n.1 - x.level) = n.2)) then s
  else if t.suspect.contains (x.level + 1, x.idx / 8) then s.addSuspect k x.level x.idx
  else match s.lineSource k line with
    | some (_, .zero) => s
    | some (.at p, .media oneBit block page) =>
      match s.nodeTries k x.level x.idx (s.parentCount k x.level x.idx) (ladderTries (s.sourceStep k p.pageKey (.media oneBit block page)) x.senses) with
      | .held n => s.updSlice k (fun y => { y with tree := { y.tree with pinned := SMap.put y.tree.pinned (x.level * 2 ^ 26 + x.idx) n } })
      | .tampered => ((s.count k 0x502).alarm 2 k.val 0 (x.level + x.idx * 2 ^ 8)).addSuspect k x.level x.idx
      | .unreadable => (s.unreadable k p.chan p.die block line).addUnver k x.level x.idx
    | _ => s.addUnver k x.level x.idx

/-- The pinned nodes of a slice, level 8 first (R353): those that the reload's reads name, and those whose home is lost. The others read as they were written. -/
def State.loadPinned (s : State) (k : SliceId) (ns : List NodeRead) : State :=
  let mine := ns.filter (fun n => n.slice = k.val)
  let kept := ((s.slice k).tree.pinned.map (fun e => (⟨k.val, e.1 / 2 ^ 26, e.1 % 2 ^ 26, []⟩ : NodeRead))).filter (fun n =>
    !mine.any (fun m => m.level = n.level && m.idx = n.idx) && (match s.lineSource k (treeLine k.val n.level n.idx) with | some (_, .poison) => true | _ => false))
  ((List.range 7).map (fun n => 8 - n)).foldl (fun s l => ((mine ++ kept).filter (fun n => n.level = l)).foldl (fun s n => s.loadNode k n) s) s

/-- The counter tree of a slice at a cold start (R353): root and unverifiable list as recorded with CLEAN set, each pinned node checked;
otherwise the root is lost, with every Sealed region of the slice. A slice without a Sealed region has nothing to lose: its tree
starts afresh. -/
def State.loadTree (s : State) (k : SliceId) (nodes : List NodeRead) : State :=
  let p := (s.protRecs)[k]
  if p.clean then
    (s.updSlice k (fun x => { x with tree := { x.tree with root := p.root, unver := p.unver, rootLost := false } })).loadPinned k nodes
  else if !s.desc.any (fun e => e.2.mode == .sealed && e.2.uses k) then
    s.updSlice k (fun x => { x with tree := { x.tree with root := Vector.replicate 8 0, pinned := [], unver := [], rootLost := false } })
  else
    ((s.updSlice k (fun x => { x with tree := { x.tree with root := Vector.replicate 8 0, unver := p.unver, rootLost := true } })).rootsGone k).goViral

/-! ## What a cold start counts and writes back -/

/-- The Dirty Shutdown Count (R51, R531, R563, R564): once for a shutdown whose flush left a slice unflushed, with its record. -/
def State.countShutdown (s : State) : State :=
  let m := s.shut.unflushed &&& s.portMask
  if s.shut.counted || m = 0 then s
  else
    let s := s.vendorAll .failure 0x0202 0xFF 0xFF 0xFF 0 m.toNat 0
    (s.putShut (fun r => { r with dirty := r.dirty + 1, counted := true })).moduleRecord 8

/-- The record of a thermal shutdown (R517). -/
def State.reportThermal (s : State) : State :=
  match s.power.thermReport with
  | none => s
  | some (who, t) =>
    let s := s.vendorAll .fatal 0x0704 (if who < 8 then who else 0xFF) 0xFF 0xFF 0 (BitVec.ofInt 64 t).toNat 0
    { s with power := { s.power with thermReport := none } }

/-- Replace causes that hold from before the start (Table 17-7). -/
def State.standingCauses (s : State) : State :=
  let s := if s.sliceIds.any (fun k => (s.slice k).media.health.any (fun e => decide (2 ≤ e.2))) then s.setReplace 0 else s
  let s := if !s.mediaRec.absent.isEmpty || !s.mediaRec.failed.isEmpty then s.setReplace 2 else s
  let s := if s.sliceIds.any (fun k => s.retireList.banks.any (fun x => x.1 = k.val) || decide (1024 < (s.retireList.frames.filter (fun x => x.1 = k.val)).length)) then
      s.setReplace 3 else s
  if s.ledgerWorn || decide (1900000 ≤ max s.shadow.pageA s.shadow.pageB) then s.setReplace 5 else s

/-- The counter is raised to the latest program beat restored (R263), whatever its block's use; a record of a block never programmed has none. -/
def State.raiseCounter (s : State) : State :=
  let lim := s.timeRec.l.toNat + 2 ^ 47
  let top := s.liveSlices.foldl (fun n k => (s.slice k).media.blocks.foldl (fun n b => if b.2.holds || b.2.beat ≠ 0 then max n (fullBeat b.2.beat lim) else n) n) 0
  if s.beat.now.toNat < top then { s with beat := { s.beat with now := BitVec.ofNat 64 top } } else s

/-- The root records once they have been used: CLEAN clear (R353). -/
def State.spendRoots (s : State) : State :=
  let old := s.protRecs
  { s with led := { s.led with prot := s.led.prot.put (Vector.ofFn (fun k => { old[k] with clean := false, root := (s.slices[k]).tree.root, unver := (s.slices[k]).tree.unver })) } }

/-! ## Every form of the step -/

/-- The descriptor lookaside cache has been tested: every entry is invalidated, and the cache enabled again (R105). -/
def Slice.cacheTested (x : Slice) : Slice := { x with cache := [], fill := none, refills := [], cacheOn := true }

/-- A slice has its tables and directory: it works, its Local regions return, and the requests held for it go on (R157). -/
def State.sliceWorks (s : State) (k : SliceId) : State :=
  let s := s.updSlice k (fun x => { x.cacheTested with st := .working, ok := true })
  ((s.sliceBack k).reloadPinned k).retryHeld k

/-- The recorded pass runs again over a slice that the reset covered (R279). -/
def State.repeatPass (s : State) (k : SliceId) : State := if s.timeRec.pass = 0 then s else s.passSlice k s.timeRec.pass

/-- Directory, folds and region records of one slice. A slice whose front store cannot be identified is lost. -/
def State.restoreSlice (s : State) (k : SliceId) (o : BootOutcome) (stray : Bool) : State :=
  let r := s.rebuildFront k o.headers o.shadows o.records
  let s := r.2
  if !r.1 then s.loseSlice k true
  else
    let s := (s.catchUp k).recoverFolds k o.scans stray
    (s.updHealthAll k).sliceWorks k

/-- Boot step 10 of a package start over some slices. -/
def State.restorePackage (s : State) (ks : List SliceId) (o : BootOutcome) (cold : Bool) : State :=
  let stray := cold && s.incomplete
  let s := if cold then
      let s := ks.foldl (fun s k => s.restoreMedia k o) s
      let s := (s.rebuildRegions ks).dropStale
      -- a slice that this start has lost makes its Local regions Unavailable (Table 03-4)
      let s := (s.sliceIds.filter (fun k => (s.slice k).st == .lost)).foldl (fun s k => s.loseRegions k) s
      let s := ks.foldl (fun s k => s.restorePoison k) s
      let s := s.loadKeys o.badWraps
      let s := ks.foldl (fun s k => s.loadTree k o.nodes) s
      s.raiseCounter
    else s
  let s := ks.foldl (fun s k => s.restoreSlice k o stray) s
  let s := if cold then (s.keylessRegions).lockRegions else s
  let s := s.finishGroup
  let s := if field s.prof 33 1 % 4 = 1 then s.applyImage else s
  if cold then
    let s := (s.countShutdown.reportThermal).standingCauses
    let s := (s.spendRoots).store
    { s with beat := { s.beat with w := s.beat.now } }.statusDriven.grantCredits
  else
    let s := ks.foldl (fun s k => s.repeatPass k) s
    s.passCheck |>.grantCredits

end Sys2Proof.Machine
end

