-- ==== Sys2Proof/Machine/Boot.lean ====
section
/-! DEFINITION. The boot steps: how an attempt is recorded, what each step does, what follows a step that keeps failing, and the wait
of step 11 (R276, R459, R467–R475, Table 14-4). -/

namespace Sys2Proof.Machine

/-! ## The boot progress record (R418, R468) -/

/-- A step's record at the start of an attempt: COUNT from 0 once the step had ended, ALT for the attempt after. -/
def BootRec.begin (r : BootRec) (now : BitVec 64) : BootRec :=
  let c := (if r.st = 2 || r.st = 4 || r.st = 5 then 0 else r.count) + 1
  ⟨1, c, c == 2 || c == 3, now⟩

/-- Change the record of one step. -/
def State.putStep (s : State) (n : Fin 14) (f : BootRec → BootRec) : State := s.putBoot (fun b => { b with steps := b.steps.set n (f b.steps[n]) })

/-- An attempt begins. -/
def State.stepBegins (s : State) (n : Fin 14) : State := s.putStep n (fun r => r.begin s.beat.now)

/-- An attempt ends with a STATE. -/
def State.stepState (s : State) (n : Fin 14) (st : Nat) : State := s.putStep n (fun r => { r with st := st, beat := s.beat.now })

/-- COUNT of a step. -/
def State.stepCount (s : State) (n : Fin 14) : Nat := (s.bootProg.steps[n]).count

/-- Steps with an alternate (Table 14-4). -/
def hasAlternate (n : Nat) : Bool := n == 1 || n == 6 || n == 7 || n == 8 || n == 11

/-! ## What a start covers (R454, R463) -/

/-- Slices that a step of a start acts on: those not lost, and for the package those with no earlier step of their own still to run. -/
def State.covered (s : State) (t : BootTgt) (n : Nat) : List SliceId :=
  match t with
  | .package => s.liveSlices.filter (fun k => !(s.slice k).todo.any (fun m => decide (m ≤ n)))
  | .slice k => if s.present k && (s.slice k).st != .lost then [k] else []

/-- The step runs in its cold form. -/
def State.coldForm (s : State) (t : BootTgt) (n : Nat) : Bool :=
  match t with
  | .package => s.rst.coldSteps.contains n
  | .slice _ => false

/-- The poison lists of the slices that step 12 covers are empty: what LINE_POISON records named has been drained (R231). -/
def State.poisonDrained (s : State) (t : BootTgt) : Bool := (s.covered t 12).all (fun k => !s.working k || !s.poisonDue k)

/-- The step is the next of its start, and nothing holds the start: RESET_L, a stop, the flush, an earlier step of the package, in
step 04 of a cold start the rail sequence, or before step 12 the drain of the poison lists. -/
def State.stepDue (s : State) (t : BootTgt) (n : Nat) : Bool :=
  !s.rst.stopped && s.power.flush == .idle && !s.rst.pinHeld && (n != 12 || s.poisonDrained t) &&
    (match t with
     | .package => s.rst.todo.head? == some n && !(n == 4 && s.rst.coldSteps.contains 4 && s.power.group != 5)
     | .slice k => s.present k && (s.slice k).todo.head? == some n && !s.rst.todo.any (fun m => decide (m ≤ n)))

/-! ## Steps 00 to 07 -/

/-- A record without a copy that does not read back valid: 1 copy A, 2 copy B, else both. -/
def Copies.without {α : Type} (c : Copies α) (n : Nat) : Copies α := if n = 1 then { c with a := none } else if n = 2 then { c with b := none } else .empty

/-- A ledger without copies of the record of a TYPE (R478, R481): the number names the TYPE, plus 32 for copy A alone or 64 for copy B alone. -/
def Ledger.drop (l : Ledger) (bad : Nat) : Ledger :=
  let t := bad % 32
  let n := bad / 32
  if t = 2 then { l with time := l.time.without n } else if t = 3 then { l with fw := l.fw.without n } else if t = 4 then { l with sel := l.sel.without n }
  else if t = 5 then { l with rail8 := if n = 2 then l.rail8 else [], rail9 := if n = 1 then l.rail9 else [] }
  else if t = 6 then { l with rlog := l.rlog.without n } else if t = 7 then { l with hold := l.hold.without n }
  else if t = 8 then { l with shut := l.shut.without n } else if t = 9 then { l with media := l.media.without n } else if t = 10 then { l with ops := l.ops.without n }
  else if t = 11 then { l with retire := l.retire.without n } else if t = 12 then { l with group := l.group.without n }
  else if t = 13 then { l with prot := l.prot.without n } else if t = 14 then { l with keys := l.keys.without n }
  else if 16 ≤ t ∧ t < 20 then { l with prof := Vector.ofFn (fun i => if i.val + 16 = t then (l.prof[i]).without n else l.prof[i]) }
  else l

/-- TYPEs whose copies tie and differ (R481). -/
def Ledger.ties (l : Ledger) : List Nat :=
  (if l.boot.tied then [1] else []) ++ (if l.time.tied then [2] else []) ++ (if l.fw.tied then [3] else []) ++ (if l.sel.tied then [4] else []) ++
    (if l.railTied then [5] else []) ++ (if l.rlog.tied then [6] else []) ++ (if l.hold.tied then [7] else []) ++ (if l.shut.tied then [8] else []) ++
    (if l.media.tied then [9] else []) ++ (if l.ops.tied then [10] else []) ++ (if l.retire.tied then [11] else []) ++ (if l.group.tied then [12] else []) ++
    (if l.prot.tied then [13] else []) ++ (if l.keys.tied then [14] else []) ++
    ((List.finRange 4).filter (fun i => (l.prof[i]).tied)).map (fun i => 16 + i.val)

/-- The LEDGER_TIE records of the ledger as it stands. -/
def State.reportTies (s : State) : State := s.led.ties.foldl (fun s t => s.vendorAll .warning 0x0801 0xFF 0xFF 0xFF 0 t 0) s

/-- Step 02: the ledger from the shadow but the boot progress record, the rail log armed, the rail configuration in force (R425, R438); of a cold start, what
UNCONFIRMED showed (R278). -/
def State.loadLedger (s : State) (bad : List Nat) : State :=
  let l := bad.foldl (fun (l : Ledger) t => l.drop t) s.shadow.led
  let s := { s with led := { l with boot := s.led.boot } }
  let s := s.reportTies
  let s := s.putRailLog (fun r => { r with armed := true })
  let s := if s.beat.loaded then s else { s with beat := { s.beat with unconfStart := s.timeRec.unconfirmed } }
  { s with power := { s.power with cfg := s.led.railCfg } }

/-- Step 03: the profile (R493), and after a cold reset the last recorded beat and the frame held (R262, R268). -/
def State.selectStart (s : State) (sel : BitVec 2) (cold : Bool) : State :=
  let s := { s with rst := { s.rst with profileSel := sel } }
  let r := s.selRec
  let p : Fin 4 := ((if cold then none else r.once).orElse (fun _ => r.sticky)).getD ⟨sel.toNat % 4, Nat.mod_lt _ (by decide)⟩
  let s := if r.once.isSome then { s with led := { s.led with sel := s.led.sel.put { r with once := none } } } else s
  let s := (s.selectProfile p).useProfile true
  let s : State := if cold then
      let s := if s.epochBackward then s else { s with beat := { s.beat with now := s.beat.now + s.timeRec.l } }
      let s := { s with beat := { s.beat with loaded := true } }
      match s.beat.heldFrame with
      | some (e, n) => { s with beat := { s.beat with heldFrame := none } }.applyFrame (e + 80 + BitVec.ofNat 64 n)
      | none => s
    else s
  s.profileEffects

/-- Step 05: the slices whose PLL locked run on their own clock. -/
def State.lockClocks (s : State) (ks : List SliceId) (service : Bool) (pkg : Bool) : State :=
  let s := ks.foldl (fun s k => s.updSlice k (fun x => { x with clkAlive := true, backupClk := false })) s
  if pkg then { s with rst := { s.rst with servicePll := !service } } else s

/-- Step 06: image A, the primary area's, or image B (R361, R362). -/
def State.verifyImage (s : State) (alt flashOk : Bool) : Bool × State :=
  let a : Fin 2 := if alt then 1 - s.fwRec.primary else s.fwRec.primary
  if flashOk && ((s.firm.area a).map s.imageOk).getD false then
    let s := { s with firm := { s.firm with running := a } }
    (true, if s.fwRec.next.isSome then { s with led := { s.led with fw := s.led.fw.put { s.fwRec with next := none } } } else s)
  else (false, s)

/-- Step 07: every VALID bit clear (R112); by the alternate, zero written with VALID set in every word of the slices whose die failed its self-check
(R113). -/
def State.clearSram (s : State) (ks : List SliceId) (alt : Bool) (bad : BitVec 8) : State :=
  let s := ks.foldl (fun s k => s.updSlice k (fun x => { x with front := { Front.reset with zeroed := alt && bad.getLsbD k.val } })) s
  { s with rst := { s.rst with failedSram := 0 } }

/-! ## Step 08 (R181, R182, R472) -/

/-- Mark a channel absent at a start. After a cold reset what it held is read from the medium. -/
def State.absentAtStart (s : State) (k : SliceId) (j : ChanId) (o : BootOutcome) (cold : Bool) : State :=
  if cold then ((s.replayMedia k o).markAbsent k j).updMedia k Media.cold else s.markAbsent k j

/-- What step 08 meets on a channel: nothing where none is named or its rail is off. -/
def State.trainOf (s : State) (o : BootOutcome) (k : SliceId) (j : ChanId) : ChanTrain :=
  let mc := 16 * k.val + j.val
  if s.channelRail k then (o.trains.find? (fun t => t.mc = mc)).getD ⟨mc, [], [], [], []⟩ else ⟨mc, [], [], [], []⟩

/-- Dies recorded as failed stay so (R247, Table 15-2). -/
def State.failedDies (s : State) (k : SliceId) (j : ChanId) : State :=
  let gone := s.mediaRec.failed
  s.updChan k j (fun c => { c with dies := Vector.ofFn (fun d => { c.dies[d] with failed := (c.dies[d]).failed || gone.contains (16 * k.val + j.val, d.val) }) })

/-- Step 08: the channels not yet up are trained (R181, R182, R472); an attempt fails when one of them fails. The alternate marks absent, without training
it, each channel that an earlier attempt reported failed, and each other that fails now. -/
def State.trainSlices (s : State) (ks : List SliceId) (o : BootOutcome) (alt cold : Bool) : Bool × State :=
  let tried := ks.flatMap (fun k => ((List.finRange 16).filter (fun j => s.chanPresent k j.val && !(s.chan k j).up)).map (fun j => (k, j)))
  let skip := fun (x : SliceId × ChanId) => alt && s.rst.failedCh.contains (16 * x.1.val + x.2.val)
  let (s, failed) := tried.foldl (fun (acc : State × List (SliceId × ChanId)) x =>
    if skip x then (acc.1, acc.2 ++ [x])
    else
      let r := (acc.1.failedDies x.1 x.2).trainChannel x.1 x.2 (acc.1.trainOf o x.1 x.2)
      (r.2, if r.1 then acc.2 else acc.2 ++ [x])) (s, [])
  if alt then
    (true, { failed.foldl (fun s x => s.absentAtStart x.1 x.2 o cold) s with rst := { s.rst with failedCh := [] } })
  else if failed.isEmpty && o.ok then (true, { s with rst := { s.rst with failedCh := [] } })
  else (false, { s with rst := { s.rst with failedCh := failed.map (fun x => 16 * x.1.val + x.2.val) } })

/-! ## Steps 11 to 13 -/

/-- The pass that an epoch fix during the start asks for begins, if none runs. Of a package-warm start this is all of step 11, which completes at once: a pass
that it interrupted goes on from the end of step 10 (R276, R279). -/
def State.passesDue (s : State) : State := if s.timeRec.pass = 0 ∧ s.beat.due ≠ 0 then (s.passBegin s.beat.due).passCheck else s

/-- Step 11 is over (R276, R279): a pass recorded before runs again after a cold start, then the one that this start's epoch fix asks
for. -/
def State.passesOn (s : State) : State :=
  if s.timeRec.pass = 0 then s.passesDue
  else
    let s := (s.putTime (fun t => { t with progress := 0 })).store
    (s.liveSlices.foldl (fun s k => s.passSlice k s.timeRec.pass) s).passCheck

/-- The wait of step 11 is over (R276): a valid frame has come, be it refused, the epoch is fixed, 2²⁰ + 81 beat events have passed since the first beat, or the
source is lost. -/
def State.waitOver (s : State) : Bool :=
  s.beat.sinceValid.isSome || s.beat.epoch != .unfixed || (match s.beat.firstBeat with | some n => decide (n + 2 ^ 20 + 81 ≤ s.beat.events) | none => false) ||
    s.beat.source = 2 || s.beat.source = 3

/-- The ports that a start enables: those of its slices with a ready PHY, while the SerDes rails hold. -/
def State.enablePorts (s : State) (ks : List SliceId) (bad : BitVec 8) : State :=
  ks.foldl (fun s p => if bad.getLsbD p.val || !s.serdesRails then s else s.updHead p (fun h => { h with enabled := true, mboxReady := !s.rst.mgmtDown })) s

/-- MANAGE for the lowest enabled port when no enabled port holds it (R495). -/
def State.grantManage (s : State) : State :=
  let on := s.sliceIds.filter (fun p => (s.head p).enabled)
  if on.any s.hasManage then s
  else match on.head? with
    | none => s
    | some p => (s.updHead p (fun h => { h with grantedManage := true })).vendorAll .warning 0x0803 0xFF 0xFF 0xFF 0 p.val 0

/-- What follows the ports of step 12: the ceiling, MANAGE, and for the package the clocks that run from here (R311, R448, R485); the SLICE_RESET that waited for
a slice ends, with the slice at output byte 8 (DESIGN CHOICE: R415 gives byte 8 no meaning; log entry 60). -/
def State.afterPorts (s : State) (t : BootTgt) (cold : Bool) : State :=
  let s := ({ s with power := { s.power with ceilAt := s.beat.events } }).recomputeCeil.grantManage
  match t with
  | .package =>
    let s := { s with beat := { s.beat with step12 := some s.beat.events, points := 0 } }
    if cold then
      let s := { s with keys := s.keys.map (fun (e : Nat × Slot) => if e.2.st = 3 then (e.1, { e.2 with since := s.beat.events }) else e) }
      (s.liveSlices.foldl (fun (s : State) k => (List.finRange 16).foldl (fun (s : State) j => (List.finRange 8).foldl (fun (s : State) d =>
        let x := (s.chan k j).dies[d]
        if x.present && !x.failed then s.startScrub k j d else s) s) s) s).grantCredits
    else s.grantCredits
  | .slice k => match s.bgOf (fun b => b == .sliceReset k) with
    | some p => (s.endVendor p .success 0 [BitVec.ofNat 8 k.val, 12]).grantCredits
    | none => s.grantCredits

/-- Step 13: the device is ready. -/
def State.becomeReady (s : State) (cold : Bool) : State :=
  let s := { s with rst := { s.rst with ready := true } }
  let s := if s.rst.skipped = 0 then s.clearReplace 6 else s
  if cold && s.liveSlices.length == s.nSlices && !s.power.rails.toList.any (·.failed) then s.clearReplace 1 else s

/-! ## An attempt -/

/-- The work of an attempt over some slices: whether the step's check passed, and the state. -/
def State.stepWork (s : State) (t : BootTgt) (n : Nat) (ks : List SliceId) (o : BootOutcome) (alt : Bool) : Bool × State :=
  let cold := s.coldForm t n
  let pkg := match t with | .package => true | .slice _ => false
  if n = 0 || n = 1 then (n = 0 || o.ok, s)
  else if n = 2 then (o.ok, if o.ok then s.loadLedger o.badRecords else s)
  else if n = 3 then (true, s.selectStart o.profileSel cold)
  else if n = 4 then (true, if cold then s.groupGood 4 else s.confirmRails)
  else if n = 5 then (o.ok, if o.ok then s.lockClocks ks false pkg else s)
  else if n = 6 then s.verifyImage alt o.ok
  else if n = 7 then
    if o.ok then (true, s.clearSram ks alt s.rst.failedSram) else (false, { s with rst := { s.rst with failedSram := s.rst.failedSram ||| o.badSlices } })
  else if n = 8 then s.trainSlices ks o alt cold
  else if n = 9 then
    let r := s.mediaInventory ks o.factoryBad
    if o.ok && r.1 then r else (false, s)
  else if n = 10 then
    -- the descriptor lookaside caches are disabled for the test of their arrays (R105)
    let s := ks.foldl (fun s k => s.updSlice k (fun x => { x with cacheOn := false })) s
    (o.ok, if !o.ok then s else if pkg then s.restorePackage ks o cold
      else ks.foldl (fun s k => ((s.restoreSlice k o false).repeatPass k).passCheck |>.grantCredits) s)
  else if n = 12 then
    let good := o.ok && ks.all (fun p => !o.badPorts.getLsbD p.val) && s.serdesRails
    (good, if good then (s.enablePorts ks 0).afterPorts t cold else s)
  else (true, if n = 11 then s.passesDue else s.becomeReady cold)

/-- The step leaves the list of its start. -/
def State.stepGone (s : State) (t : BootTgt) (n : Fin 14) : State :=
  match t with
  | .package => { s with rst := { s.rst with todo := s.rst.todo.filter (· != n.val), coldSteps := s.rst.coldSteps.filter (· != n.val), lastStep := n.val } }
  | .slice k => s.updSlice k (fun x => { x with todo := x.todo.filter (· != n.val) })

/-- A step is done, by its own method or its alternate; the start stops after step 05 where a rail that everything needs has failed. -/
def State.stepDone (s : State) (t : BootTgt) (n : Fin 14) (st : Nat) : State :=
  let s := (s.stepState n st).stepGone t n
  let dead := n.val = 5 && [(8 : Fin 20), 9, 15].any (fun r => (s.power.rails[r]).failed)
  match t with
  | .package => if dead then s.stopStart else s
  | .slice _ => s

/-- A step is skipped (R475). -/
def State.stepSkipped (s : State) (t : BootTgt) (n : Fin 14) : State :=
  (({ s with rst := { s.rst with skipped := setBit s.rst.skipped n.val true } }).stepDone t n 5).setReplace 6

/-- A step that still fails after its attempts, or is not attempted any more (R469, Table 14-4). -/
def State.giveUp (s : State) (t : BootTgt) (n : Fin 14) (o : BootOutcome) (tried : Bool) : State :=
  let all := s.covered t n.val
  let bad := if tried || n.val = 1 then all.filter (fun k => o.badSlices.getLsbD k.val) else all
  let good := all.filter (fun k => !bad.contains k)
  let lose := fun (s : State) => bad.foldl (fun s k => s.loseSlice k true) s
  let pkg := match t with | .package => true | .slice _ => false
  let none' := n = 0 || n = 3 || n = 4 || n = 8 || n = 11 || n = 13
  if pkg && (n = 6 || none' || (n = 1 && o.service)) then (s.stepState n 3).stopStart
  else if none' then (lose s).stepSkipped t n
  else if n = 2 then (s.loadLedger o.badRecords).stepSkipped t n
  else if n = 5 then (lose (s.lockClocks good (o.service || !tried) pkg)).stepSkipped t n
  else if n = 7 then (lose (s.clearSram good true s.rst.failedSram)).stepSkipped t n
  else if n = 12 then ((s.enablePorts all (if tried then o.badPorts else 0xFF)).afterPorts t (s.coldForm t 12)).stepSkipped t n
  else
    let w := s.stepWork t n.val good { o with ok := true } true
    if w.1 then (lose w.2).stepSkipped t n else (all.foldl (fun s k => s.loseSlice k true) w.2).stepSkipped t n

/-- The trim fields that the alternate of step 01 left to the SPI flash are read at the end of step 04, under step 01's record (R471). -/
def State.trimsRead (s : State) (t : BootTgt) (o : BootOutcome) : State :=
  let s := { s with rst := { s.rst with trimWait := false } }
  if o.ok then s.stepState 1 4 else s.giveUp t 1 o true

/-- An attempt whose check passed. A cold start's step 01 that must read the flash leaves its record at started until VDD_SRV is good (R471). -/
def State.stepPasses (s : State) (t : BootTgt) (n : Fin 14) (o : BootOutcome) (alt : Bool) : State :=
  if n = 1 && alt && o.trimFlash && s.coldForm t 1 then
    let s := s.stepGone t n
    { s with rst := { s.rst with trimWait := true } }
  else
    let s := s.stepDone t n (if alt then 4 else 2)
    if n = 4 && s.rst.trimWait then s.trimsRead t o else s

/-- BOOT_STEP_ATTEMPT (R467–R475). Step 11 of a cold start waits until its wait is over (R276). -/
def execBootStepAttempt (tgt : BootTgt) (step : Fin 14) (o : BootOutcome) (s : State) : Host.Outcome State Fault Refusal :=
  .next (
    if !s.stepDue tgt step.val || (step = 11 && s.rst.epochWait) then s
    else
      let s := if step = 0 then { s with led := { s.led with boot := s.shadow.led.boot } }.bootCounts else s
      let s := s.stepBegins step
      let c := s.stepCount step
      let waits := step = 11 && s.coldForm tgt 11
      if waits then
        if s.beat.epoch != .unfixed then (s.stepDone tgt step 2).passesOn
        else { s with rst := { s.rst with epochWait := true } }
      else if 5 ≤ c then s.giveUp tgt step o false
      else if o.cut then s
      else
        let alt := 3 ≤ c && hasAlternate step.val
        let r := s.stepWork tgt step.val (s.covered tgt step.val) o alt
        if r.1 then r.2.stepPasses tgt step o alt
        else
          let s := r.2.stepState step 3
          if c = 4 then (s.stepBegins step).giveUp tgt step o true else s)

/-- EPOCH_WAIT_END (R276): the step is done, or done by its alternate, Patient calibration. -/
def execEpochWaitEnd (s : State) : Host.Outcome State Fault Refusal :=
  .next (
    if !s.rst.epochWait || !s.waitOver then s
    else
      let s := { s with rst := { s.rst with epochWait := false } }
      (s.stepDone .package 11 (if s.beat.epoch != .unfixed then 2 else 4)).passesOn)

/-- BOOT_RECORD_UART (R474): once a second in a stopped start. -/
def execBootRecordUart (s : State) : Host.Outcome State Fault Refusal :=
  .next (
    if !s.rst.stopped then s
    else
      let b := s.bootProg
      let bytes := leBytes 4 b.count.toNat ++ b.steps.toList.flatMap (fun r => leBytes 1 r.st ++ leBytes 1 r.count ++ leBytes 1 (bitAt r.alt 0) ++ leBytes 1 0 ++ leBytes 8 r.beat.toNat)
      ({ s with rst := { s.rst with uartSec := s.rst.uartSec + 1 } }).emit (.uart bytes))

end Sys2Proof.Machine
end

