-- ==== Sys2Proof/Machine/Drains.lean ====
section
/-! DEFINITION. The drains of a slice's front store: what they read of it, and the loss of a slice whose front store cannot be told (R147–R149, R227, R330). -/

namespace Sys2Proof.Machine

/-- Spill entries that hold lines of a page. -/
def State.spillOfPage (s : State) (k : SliceId) (pk : Nat) : List Nat :=
  (List.range 64).filterMap (fun i => (s.lineOfPage k pk i).bind (fun l => ((s.slice k).front.findSpill l).map (·.1)))

/-- The drain of a page copies its lines and looks its nodes up (R136, R144, R147): an uncorrectable word poisons the line, which is drained so. -/
def State.readPage (s : State) (k : SliceId) (pk : Nat) (errs : List (Nat × List Nat)) : State :=
  let of := fun (i : Nat) => ((errs.find? (fun e => e.1 = i)).map (·.2)).getD []
  let s := match s.pageSeal k pk with
    | some i => (s.readNode k 1 (i / 8) (of 64)).readNode k 0 i (of 65)
    | none => s
  (s.pageNeeds k pk).foldl (fun s n => match s.sramRead k n.2 (fun _ => true) (of n.1) with
    | (none, s) => s
    | (some i, s) => s.lineBad k none n.2 i) s

/-- What the front store holds of a page is read for its drain: headers, spill records, lines (R147–R149). False where the slice is lost by it. -/
def State.readForDrain (s : State) (k : SliceId) (pk : Nat) (r : DrainRead) : Bool × State :=
  match s.readHeaders k (s.framesOfPage k pk) r.hdrs r.shadows with
  | (false, s) => (false, s)
  | (true, s) =>
    let mine := s.spillOfPage k pk
    match s.readSpill k (r.records.filter (fun x => mine.contains x.entry)) with
    | (false, s) => (false, s)
    | (true, s) => (true, s.readPage k pk r.errs)

/-- JOURNAL_DRAIN (R227, R231, R247, R251, R252, R331, R345): the writer takes a page key, with what it reads. -/
def execJournalDrain (k : SliceId) (pk : Nat) (r : DrainRead) (s : State) : Host.Outcome State Fault Refusal :=
  .next (
    if !s.drains k pk then s
    else match s.readForDrain k pk r with
    | (false, s) => s.loseSlice k true
    | (true, s) =>
      let m := (s.slice k).media
      let lines := (s.pageNeeds k pk).map (·.2)
      let rekey := (s.rekeyPage k pk).isSome
      let c := pk / 2 ^ 27 % 16
      let dd := pk / 2 ^ 24 % 8
      let dead := (m.entry (pk / 1024)).st == .dead
      (if !lines.isEmpty && !m.ovRoom pk && !dead && !s.noPlace k pk then (s.updMedia k (·.waitRoom pk)).mandate k
      else if !s.canDrain k pk || !(if rekey then s.notAhead k pk else s.drainTurn k pk) then s
      -- a page that no block can take is marked (R252)
      else if dead || s.mediaRec.absent.any (fun a => a.mc = 16 * k.val + c) then s.dropLines k pk lines
      else if !m.hasHead (c * 8 + dd) then (if m.canAllocate c dd then s else s.markUnplaced k pk lines)
      else
        let nodes := (s.pageNeeds k pk).filterMap (fun n => (treeOf n.2).map (fun t => (n.1, t.2.1, t.2.2)))
        (s.beginDrain k pk r.olds nodes rekey).mandate k).grantCredits)

/-- In the flush a node of a level is written behind every data line and every node below it, which nothing holds any more (R330). -/
def State.nodeTurn (s : State) (k : SliceId) (level : Nat) : Bool :=
  let x := s.slice k
  s.power.flush == .idle ||
    (x.front.dirtyList.all (fun l => decide (level + 1 ≤ flushClass l.1)) && x.media.drains.all (fun d => match s.lineOfPage k d.key 0 with
      | some l => decide (level + 1 ≤ flushClass l)
      | none => true) && x.tree.dirty.all (fun n => decide (level ≤ n.level)))

/-- TREE_NODE_WRITEBACK (R330): a changed node is written with its parent's incremented counter. -/
def execTreeNodeWriteback (k : SliceId) (level idx : Nat) (r : DrainRead) (s : State) : Host.Outcome State Fault Refusal :=
  .next (
    if !((s.slice k).tree.dirty.any (fun n => n.level = level && n.idx = idx)) then s
    else match s.treePlace k.val level idx with
      | none => s
      | some (p, i) =>
        match substitute s.mediaRec.absent 17 p with
        | .at p =>
          let pk := p.pageKey
          let m := (s.slice k).media
          if !s.nodeTurn k level || m.drains.any (fun d => d.key / 2 ^ 24 = pk / 2 ^ 24) || !m.ovRoom pk || (m.entry (pk / 1024)).st == .dead || !m.hasHead (pk / 2 ^ 24) || !s.notAhead k pk then s
          else match s.readForDrain k pk r with
          | (false, s) => s.loseSlice k true
          | (true, s) =>
            let own := (s.pageNeeds k pk).filterMap (fun n => (treeOf n.2).map (fun t => (n.1, t.2.1, t.2.2)))
            let nodes := if 2 ≤ level then [(i, level, idx)] else own
            if nodes.isEmpty then s else (s.beginDrain k pk r.olds nodes false).grantCredits
        | _ => s)

end Sys2Proof.Machine
end

