-- ==== Sys2Proof/Machine/Sources.lean ====
section
/-! DEFINITION. The reset sources of Table 14-1 and their release, debug access through JTAG, and the keeper readout (R354, R358, R420,
R431, R451–R453, R458, R462, R464, R518, R538–R540, R549). -/

namespace Sys2Proof.Machine

/-! ## The supply and the reset pin -/

/-- POWER_ON_RESET (R451, R452): VDD_AUX was below 1.0 V, where the brown-out cell does not hold. -/
def execPowerOnReset (s : State) : Host.Outcome State Fault Refusal :=
  let s := { s with rst := { s.rst with brown := false } }
  .next (s.coldReach (s.coldCauses 1))

/-- BROWN_OUT (R451, R452): VDD_AUX below its fault level for 1 µs. -/
def execBrownOut (ns : Nat) (s : State) : Host.Outcome State Fault Refusal :=
  .next (if ns < 1000 then s
    else
      let s := { s with rst := { s.rst with brown := true } }
      s.coldReach (s.coldCauses 2))

/-- The always-on island holds the device after a thermal shutdown (R518). -/
def State.thermHeld (s : State) : Bool := s.power.flush == .off && s.power.thermShut

/-- RESET_PIN (R451, R462, R518): RESET_L low for 1 µs. Asserted 10 s or more after THERM_L fell it ends the state of a thermal
shutdown by a cold start; a pin already low adds only its cause bit. -/
def execResetPin (ns : Nat) (s : State) : Host.Outcome State Fault Refusal :=
  .next (if ns < 1000 then s
    else if s.rst.pinHeld then s.causeAll 2
    else
      let s := { s with rst := { s.rst with pinHeld := true } }
      if s.thermHeld && decide (s.power.thermAt + 10000000 ≤ s.beat.events) then
        { s with rst := { s.rst with brown := false } }.coldReach (s.coldCauses 5)
      else s.source .warm 2)

/-- RESET_SOURCE_RELEASE (R462): a part leaves reset once every source covering it has been released. -/
def execResetSourceRelease (src : ResetSrc) (s : State) : Host.Outcome State Fault Refusal :=
  .next (match src with
    | .resetPin => { s with rst := { s.rst with pinHeld := false } }
    | .perst p => s.updHead p (fun h => { h with held := setBit h.held 0 false })
    | .hot p => s.updHead p (fun h => { h with held := setBit h.held 1 false })
    | .refclk p => s.updHead p (fun h => { h with held := setBit h.held 2 false }))

/-! ## Clocks -/

/-- A slice is still held in reset: the start that follows has not reached its step 05 (R459). -/
def State.heldInReset (s : State) (k : SliceId) : Bool := s.rst.todo.contains 5 || (s.slice k).todo.contains 5

/-- CLOCK_FAILURE (R458, R462, R499): the core domain goes over to the backup clock, CLK_ALIVE staying set, and the slice reach is
asserted at once; a slice still held in reset takes only the cause bit. -/
def execClockFailure (k : SliceId) (s : State) : Host.Outcome State Fault Refusal :=
  .next (if !s.present k || (s.slice k).st == .lost || !(s.slice k).clkAlive then s
    else
      let s := (s.updSlice k (fun x => { x with backupClk := true })).causeAll 6
      if s.heldInReset k then s else s.sliceReach k)

/-- SERVICE_PLL_UNLOCK (R498): the service domains run on the backup clock. -/
def execServicePllUnlock (s : State) : Host.Outcome State Fault Refusal := .next { s with rst := { s.rst with servicePll := false } }

/-! ## The management processor (R358) -/

/-- The firmware or the ROM runs: step 06 has verified an image and rail 8 holds. -/
def State.mgmtRuns (s : State) : Bool :=
  !s.rst.todo.contains 6 && !s.rst.stopped && s.power.flush != .off && (s.power.rails[(8 : Fin 20)]).good

/-- WATCHDOG (R358): not serviced for 250 ms. -/
def execWatchdog (ms : Nat) (s : State) : Host.Outcome State Fault Refusal :=
  .next (if ms < 250 || !s.mgmtRuns then s else s.mgmtFault 5)

/-- LOCKUP (R358): a compare mismatch, or a fault that the firmware cannot handle. -/
def execLockup (s : State) : Host.Outcome State Fault Refusal := .next (if s.mgmtRuns then s.mgmtFault 7 else s)

/-! ## Debug -/

/-- DBG_RESET (R451, R464): only while debug is unlocked; package warm or management, as the instruction selects. -/
def execDbgReset (warm : Bool) (s : State) : Host.Outcome State Fault Refusal :=
  .next (if s.rst.debugOpen then s.source (if warm then .warm else .mgmt) 4 else s)

/-- DBG_EN_FALL (R549): debug access is locked again. -/
def execDbgEnFall (s : State) : Host.Outcome State Fault Refusal :=
  .next { s with rst := { s.rst with dbgEn := false, debugOpen := false } }

/-- JTAG_BOUNDARY_SCAN_INSTRUCTION (R431): the rail supervisor's Test phase holds while such an instruction is selected. -/
def execJtagBoundaryScanInstruction (selected : Bool) (s : State) : Host.Outcome State Fault Refusal :=
  .next { s with rst := { s.rst with boundary := selected } }

/-- A line that debug paths may reach: it belongs to a Clear region (R354). -/
def State.debugClear (s : State) (dpa : Nat) : Bool :=
  match s.regionAt dpa with
  | some (_, d, _) => d.mode == .clear
  | none => false

/-- Owning slice of a DPA, slice 0 where no region maps it. -/
def State.debugSlice (s : State) (dpa : Nat) : SliceId := fin8 ((s.ownerOf (dpa / 64)).getD 0)

/-- A Clear line on the medium as a debug path reads it, by the ladder of its block; open where it cannot be read, fails its check or is poisoned. -/
def State.debugMedia (s : State) (k : SliceId) (line : Nat) (rs : List Sense) : Option Line :=
  match s.regionAt (line * 64), s.lineSource k line with
  | some (_, d, _), some (.at p, .media oneBit block page) =>
    match (s.checkTries d line none 0 (ladderTries (s.sourceStep k p.pageKey (.media oneBit block page)) rs)).2 with
    | some (_, .ok x false _) => some x
    | _ => none
  | _, some (_, .zero) => some 0
  | _, _ => none

/-- A line as a debug path reads it (R354): what the front store holds, or what the medium holds, with the bytes of a Partial slot over it. What it shows of a line
that is poisoned or cannot be read, or whose slice does not run, is open (DESIGN CHOICE; log entry 48). -/
def State.debugLine (s : State) (dpa : Nat) (rs : List Sense) : Line × State :=
  let k := s.debugSlice dpa
  let line := dpa / 64
  let (n, s') := s.draw
  let open' : Line := Config.freeValue n 512
  let media := s.debugMedia k line rs
  let got : Option Line :=
    if (s.slice k).st != .working || (s.slice k).front.poison.contains line then none
    else match (s.slice k).front.look line with
      | .full w _ _ => if w.poisoned then none else some w.read
      | .partly w m _ => if w.poisoned then none else media.map (fun x => mergeBytes x w.data m)
      | .miss => media
  let s' := match s.lineSource k line with
    | some (.at p, .media _ block _) => if (s.slice k).front.look line = .miss && !rs.isEmpty then s'.bumpRead k (ch16 p.chan) p.die block rs.length else s'
    | _ => s'
  (got.getD open', s')

/-- A whole line written by a debug path: it commits on its owning slice as a write without poison, or not at all where the front store has no room
(DESIGN CHOICE; log entry 69). -/
def State.debugPut (s : State) (dpa : Nat) (d : Line) : State :=
  let k := s.debugSlice dpa
  match s.lineHome (dpa / 64) with
  | some (.nowhere, _) | none => s
  | _ => if (s.slice k).st == .working then s.commitLine k none (dpa / 64) (BitVec.allOnes 64) d false else s

/-- A refused debug or copy access is counted (R354). -/
def State.debugBlocked (s : State) (dpa : Nat) : State := s.count (s.debugSlice dpa) 0x50B

/-- DEBUG_MEMORY_ACCESS (R354): while debug is unlocked; the copy engine refuses as a whole. -/
def execDebugMemoryAccess (op : DebugOp) (s : State) : Host.Outcome State Fault Refusal :=
  .next (if !s.rst.debugOpen then s
    else match op with
      | .read dpa rs =>
        if s.debugClear dpa then
          let (d, s) := s.debugLine dpa rs
          s.emit (.debug d false)
        else (s.debugBlocked dpa).emit (.debug 0 true)
      | .write dpa data => if s.debugClear dpa then s.debugPut dpa data else s.debugBlocked dpa
      | .copy src dst rs =>
        if !s.debugClear src then s.debugBlocked src
        else if !s.debugClear dst then s.debugBlocked dst
        else
          let (d, s) := s.debugLine src rs
          s.debugPut dst d)

/-! ## The keeper (R538–R540) -/

/-- The keeper answers only while firmware does not run the sideband. -/
def State.keeperAnswers (s : State) : Bool := s.rst.todo.contains 6 || s.rst.stopped || s.rst.mgmtDown

/-- Identity as the keeper gives it, area 6 of Table 17-9. -/
def State.keeperId (s : State) : List Byte :=
  leBytes 2 0x7A50 ++ leBytes 1 s.nSlices ++ leBytes 1 0xB0 ++ leBytes 8 s.fused.serial.toNat ++ leBytes 4 0

/-- Byte of a keeper area at an offset, which wraps within the area; an area outside Table 17-9 reads 0xFF. -/
def State.keeperByte (s : State) (draw area off : Nat) : Byte :=
  if area < 2 then s.shadow.led.byte draw area (off % 1024)
  else if area < 4 then s.shadow.led.byte draw (area + 8) (off % 1024)
  else if area = 4 then s.shadow.sumA.getD (off % 64) 0
  else if area = 5 then s.shadow.sumB.getD (off % 64) 0
  else if area = 6 then s.keeperId.getD (off % 16) 0
  else 0xFF

/-- KEEPER_WRITE (R538, R539): three bytes set AREA and OFFSET; any other length is acknowledged and ignored. -/
def execKeeperWrite (bytes : List Byte) (s : State) : Host.Outcome State Fault Refusal :=
  .next (if !s.keeperAnswers then s.emit (.keeper none)
    else
      let s := if bytes.length = 3 then { s with firm := { s.firm with keeper := (field bytes 0 1, field bytes 1 2) } } else s
      s.emit (.keeper (some [])))

/-- KEEPER_READ (R538–R540): bytes from the position onward, of the shadow as it stands. -/
def execKeeperRead (n : Nat) (s : State) : Host.Outcome State Fault Refusal :=
  .next (if !s.keeperAnswers then s.emit (.keeper none)
    else
      let (draw, s) := s.draw
      s.emit (.keeper (some ((List.range n).map (fun i => s.keeperByte draw s.firm.keeper.1 (s.firm.keeper.2 + i))))))

end Sys2Proof.Machine
end

