-- ==== Sys2Proof/Machine/Held.lean ====
section
/-! DEFINITION. Doorbells that were held, and what releases them: the end of a ledger store, of a write-group fence, of a management
restart and of an online activation (R359, R360, R367, R371, R392, R486). -/

namespace Sys2Proof.Machine

/-- A mailbox or sideband command by its own meaning; no other command rings a doorbell. -/
def runMail (i : Instr) (s : State) : Host.Outcome State Fault Refusal :=
  match i with
  | .unsupportedOpcode src op => execUnsupportedOpcode src op s
  | .identify src => execIdentify src s
  | .backgroundOperationStatus src => execBackgroundOperationStatus src s
  | .getResponseMessageLimit src => execGetResponseMessageLimit src s
  | .requestAbortBackgroundOperation src => execRequestAbortBackgroundOperation src s
  | .getEventRecords src log => execGetEventRecords src log s
  | .clearEventRecords src log all handles => execClearEventRecords src log all handles s
  | .getEventInterruptPolicy src => execGetEventInterruptPolicy src s
  | .setEventInterruptPolicy src inf warn fail fat => execSetEventInterruptPolicy src inf warn fail fat s
  | .getFwInfo src => execGetFwInfo src s
  | .transferFw src slot act off data => execTransferFw src slot act off data s
  | .activateFw src slot online => execActivateFw src slot online s
  | .getTimestamp src => execGetTimestamp src s
  | .setTimestamp src ns => execSetTimestamp src ns s
  | .getSupportedLogs src => execGetSupportedLogs src s
  | .getLog src effects off len => execGetLog src effects off len s
  | .identifyMemoryDevice src => execIdentifyMemoryDevice src s
  | .getPartitionInfo src => execGetPartitionInfo src s
  | .getLsa src off len => execGetLsa src off len s
  | .setLsa src off data => execSetLsa src off data s
  | .getHealthInfo src => execGetHealthInfo src s
  | .getAlertConfiguration src => execGetAlertConfiguration src s
  | .setAlertConfiguration src cfg => execSetAlertConfiguration src cfg s
  | .getShutdownState src => execGetShutdownState src s
  | .setShutdownState src v => execSetShutdownState src v s
  | .getPoisonList src base len => execGetPoisonList src base len s
  | .injectPoison src dpa => execInjectPoison src dpa s
  | .clearPoison src dpa data => execClearPoison src dpa data s
  | .getScanMediaCapabilities src base len => execGetScanMediaCapabilities src base len s
  | .scanMedia src base len => execScanMedia src base len s
  | .getScanMediaResults src => execGetScanMediaResults src s
  | .identifyExt src pl => execIdentifyExt src pl s
  | .profileGet src pl => execProfileGet src pl s
  | .profileSelect src pl => execProfileSelect src pl s
  | .profileWrite src pl => execProfileWrite src pl s
  | .regionCreate src pl => execRegionCreate src pl s
  | .regionModify src pl => execRegionModify src pl s
  | .regionDestroy src pl => execRegionDestroy src pl s
  | .regionDiscard src pl => execRegionDiscard src pl s
  | .regionQuery src pl => execRegionQuery src pl s
  | .apertureSet src pl => execApertureSet src pl s
  | .writeGroupFence src pl => execWriteGroupFence src pl s
  | .keyLoad src pl => execKeyLoad src pl s
  | .keyRetire src pl => execKeyRetire src pl s
  | .keyQuery src pl => execKeyQuery src pl s
  | .regionRekey src pl => execRegionRekey src pl s
  | .epochSet src pl => execEpochSet src pl s
  | .beatStatus src pl => execBeatStatus src pl s
  | .lensCalibrate src pl => execLensCalibrate src pl s
  | .pacerGet src pl => execPacerGet src pl s
  | .pacerSet src pl => execPacerSet src pl s
  | .arbWeightsSet src pl => execArbWeightsSet src pl s
  | .arbStats src pl => execArbStats src pl s
  | .countersConfig src pl => execCountersConfig src pl s
  | .countersUserAccess src pl => execCountersUserAccess src pl s
  | .ledgerRead src pl => execLedgerRead src pl s
  | .ledgerWrite src pl => execLedgerWrite src pl s
  | .ledgerStore src pl => execLedgerStore src pl s
  | .healthExt src pl => execHealthExt src pl s
  | .retireList src pl => execRetireList src pl s
  | .sramRetire src pl => execSramRetire src pl s
  | .sliceQuiesce src pl => execSliceQuiesce src pl s
  | .sliceReset src pl => execSliceReset src pl s
  | .portReset src pl => execPortReset src pl s
  | .packageReset src pl => execPackageReset src pl s
  | .bootRecordGet src pl => execBootRecordGet src pl s
  | .railLogGet src pl => execRailLogGet src pl s
  | .debugUnlock src pl dbgEn => execDebugUnlock src pl dbgEn s
  | .telemetryConfig src pl => execTelemetryConfig src pl s
  | .holdupStatus src pl => execHoldupStatus src pl s
  | _ => .next s

/-- The state a command leaves. -/
def State.after (s : State) (o : Host.Outcome State Fault Refusal) : State := match o with | .next t => t | _ => s

/-- The held doorbells, in the order in which they were rung; one that still cannot run is held again (R359, R367). -/
def State.runHeld (s : State) : State :=
  s.rst.rung.foldl (fun s p => match (s.head p).doorbells with
    | [] => s
    | i :: _ =>
      let s := s.updHead p (fun h => { h with doorbells := [] })
      s.after (runMail i s)) { s with rst := { s.rst with rung := [] } }

/-- LEDGER_STORE_END (R410, R464, R486). -/
def execLedgerStoreEnd (us : Nat) (s : State) : Host.Outcome State Fault Refusal := .next ((s.ledgerStoreEnds us).runHeld)

/-- WRITE_GROUP_COMMIT (R392). -/
def execWriteGroupCommit (s : State) : Host.Outcome State Fault Refusal := .next s.groupCommits.runHeld

/-! ## The management restart (R359, R360) -/

/-- The processor complex can run: its rail holds, the start has not stopped and the rails are not off for a shutdown. -/
def State.mgmtCanRun (s : State) : Bool := s.rst.mgmtDown && (s.power.rails[(8 : Fin 20)]).good && !s.rst.stopped && s.power.flush != .off

/-- The records that slices raised during the restart enter the logs; those beyond the queue count as lost (R360). -/
def State.enterHeld (s : State) : State :=
  let recs := s.rst.heldEvents
  let gone := s.rst.heldLost
  let s := { s with rst := { s.rst with heldEvents := [], heldLost := [] } }
  let s := recs.foldl (fun s e => s.enterLog (fin8 e.1) e.2.1 e.2.2) s
  gone.foldl (fun s e => s.updHead (fin8 e.1) (fun h => { h with logs := h.logs.set (logIx e.2.1) ((h.logs[logIx e.2.1]).lose e.2.2) })) s

/-- Commands that the reset interrupted complete with Interrupted (R360): foreground ones, and background ones whose work is
neither in the slices nor recorded in the ledger. -/
def State.endInterrupted (s : State) : State :=
  let cut := s.rst.interrupted
  let s := { s with rst := { s.rst with interrupted := [] } }
  let s := cut.foldl (fun s c => (s.emit (.mailbox c.1 .interrupted (vHead 0 c.2.toNat 0))).rung c.1) s
  s.sliceIds.foldl (fun s p => match (s.head p).bg with
    | none => s
    | some b => match b.kind with
      | .fwTransfer => s.endBg p .interrupted 0 none
      | .sliceReset _ => s.endVendor p .interrupted 0 []
      | _ => s) s

/-- The firmware runs again: the ledger SRAM's copies are chosen again (R481), a write group is finished (R393), what waited is taken up
and Mailbox Interface Ready is set. -/
def State.mgmtBack (s : State) : State :=
  let s := { s with rst := { s.rst with mgmtDown := false } }
  let s := ((s.reportTies.enterHeld).finishGroup).endInterrupted
  (s.mapHeads (fun h => if h.enabled then { h with mboxReady := true } else h)).runHeld

/-- MANAGEMENT_RESTART_COMPLETE (R360, R371): the image that was running is back; an activation whose trial failed completes with
FW Rolled Back. A trial in progress ends by its ready point or its timeout. -/
def execManagementRestartComplete (s : State) : Host.Outcome State Fault Refusal :=
  .next (if !s.mgmtCanRun || s.firm.trial then s
    else match s.firm.act with
      | none => s.mgmtBack
      | some (p, _) => (({ s with firm := { s.firm with act := none } }).endBg p .fwRolledBack 0 none).mgmtBack)

/-- FW_READY_POINT (R371, Sequence 11-1 steps 5 to 7): within 500 ms of its start the image becomes primary, the activation completes with
Success and the held doorbells run. -/
def execFwReadyPoint (ms : Nat) (s : State) : Host.Outcome State Fault Refusal :=
  .next (if !s.mgmtCanRun || !s.firm.trial || 500 < ms then s
    else match s.firm.act with
      | none => s
      | some (p, slot) => match slotArea slot with
        | none => s
        | some a =>
          let s := match s.firm.area a with | some im => s.makePrimary a im false | none => s
          let s := { s with firm := { s.firm with act := none, trial := false, running := a } }
          (s.endBg p .success 0 none).mgmtBack)

end Sys2Proof.Machine
end

