-- ==== Sys2Proof/Machine/Sram.lean ====
section
/-! DEFINITION. What the slice does with its SRAM by itself: the rebuild of a directory set, the rewrite of a corrected word and the patrol (R144, R145,
R147–R151, Table 10-8). -/

namespace Sys2Proof.Machine

/-- DIRECTORY_SET_REBUILD (R150): the set's entries are rebuilt from its headers, chosen as R148 and R149 set out, but for frames of the retire list; the next
requests to the set are those that waited. -/
def execDirectorySetRebuild (k : SliceId) (r : SetRead) (s : State) : Host.Outcome State Fault Refusal :=
  .next (
    if 8192 ≤ r.set then s
    else
      let listed := s.retiredFrames k
      match s.readHeaders k (((List.range 16).map (16 * r.set + ·)).filter (fun n => !listed.contains n)) r.hdrs r.shadows with
      | (false, s) => s.loseSlice k true
      | (true, s) => ((s.updFront k (fun f => { f.rebuildSet r.set with rebuiltSet := if r.late = 0 then none else some (r.set, r.late) })).count k 0x208).grantCredits)

/-- SRAM_WORD_REWRITE (R144): the oldest word waiting is rewritten corrected; the word then holds what it held. -/
def execSramWordRewrite (k : SliceId) (s : State) : Host.Outcome State Fault Refusal :=
  .next (s.updFront k (fun f => { f with rewrites := f.rewrites.drop 1 }))

/-- The pinned node that a word of the table half holds: levels 2 to 8 in turn from the start of their area (the order is a DESIGN CHOICE; log entry 86). -/
def pinnedOfWord (w : Nat) : Option (Nat × Nat) :=
  match sramArea (w * 8) with
  | (.pinned, o) =>
    let n := o / 64
    if pinnedOff 9 ≤ n then none
    else
      let level := ((List.range 7).filter (fun i => pinnedOff (i + 2) ≤ n)).length + 1
      some (level, n - pinnedOff level)
  | _ => none

/-- A word of the table half as its chapter's table has it: none where the table lists nothing there. Where the spec gives a table its place and not the order
within it, the parity rows of a channel lie by row modulo 96, and the journal buffer begins at the start of its
area (DESIGN CHOICE; log entry 69). -/
def State.tableWord (s : State) (k : SliceId) (w : Nat) : Option (BitVec 64) :=
  let m := (s.slice k).media
  match sramArea (w * 8) with
  | (.descriptors, o) => (SMap.get? s.desc (o / 64)).map (fun d => wordAt (descBytes (o / 64) (some d)) (w % 8))
  | (.parity, o) => (m.parityAt (o / 491520) (o % 491520 / 5120)).map (fun x => x.extractLsb' (o % 5120 / 8 * 64) 64)
  | (.mapJournal, o) => if o < (m.buffer.foldl (fun n r => n + r.bytes.length) 0) then some (wordAt (m.buffer.flatMap MapLog.bytes) (o / 8)) else none
  | (.pinned, _) => (pinnedOfWord w).bind (fun n => (SMap.get? (s.slice k).tree.pinned (n.1 * 2 ^ 26 + n.2)).map (fun x => x.extractLsb' (64 * (w % 8)) 64))
  | a => tableEntry m.bmap m.overlay m.blocks a

/-- A word of a slice's SRAM as a read gives it (R108, R109, R114): a word of the front store, or of the table half, of which step 09 has written every word. -/
def State.sramWordAt (s : State) (k : SliceId) (w : Nat) : BitVec 80 :=
  let f := (s.slice k).front
  match (sramArea (w * 8)).1 with
  | .frames | .headLines | .masks | .tagShadow | .spill | .reserved => f.word w
  | _ => if f.tabled then sramWord ((s.tableWord k w).getD 0) true false else sramWord 0 f.zeroed false

/-- An uncorrectable word of a pinned node (Table 10-8): one already written back is read again from its home, one that is not is unverifiable. -/
def State.pinnedBad (s : State) (k : SliceId) (level idx : Nat) : State :=
  if (s.slice k).tree.dirty.any (fun n => n.level == level && n.idx == idx) then s.addUnver k level idx
  else s.raiseNode k level idx none .fw true false true none

/-- What the patrol's read of a word with some bits in error does. -/
def State.patrolWord (s : State) (k : SliceId) (w bitErrs : Nat) : State :=
  match (s.slice k).front.lineOfWord w with
  | some line =>
    let (errs, s) := s.lineErrs k line ((List.range 8).map (fun i => if i = w % 8 then bitErrs else 0))
    let e := errs.getD (w % 8) 0
    let s := s.noteErrs k w [e]
    if e < 3 then s
    else
      -- a Clean tree line is read again from its home
      match (s.slice k).front.look line, treeOf line with
      | .full _ _ false, some (_, level, idx) => (s.lineBad k none line (w % 8)).raiseNode k level idx none .fw true false true none
      | _, _ => s.lineBad k none line (w % 8)
  | none =>
    -- a word that is Invalid under R109 reads as zero whatever the array holds, and is never rewritten
    if !(s.sramWordAt k w).getLsbD 78 then s
    else
      let (errs, s) := s.decodeWords k none (w % 8) [bitErrs]
      let s := s.noteErrs k w errs
      match pinnedOfWord w with
      | some (level, idx) => if (errSummary errs).2.2 then s.pinnedBad k level idx else s
      | none => s

/-- SRAM_PATROL (R145): the patrol reads its next word, from word 0 up and round again (the order is a DESIGN CHOICE; log entry 87); errors are corrected as
R144 sets out, and a pass ends after the slice's 67,108,864 words. -/
def execSramPatrol (k : SliceId) (bitErrs : Nat) (s : State) : Host.Outcome State Fault Refusal :=
  .next (
    let w := (s.slice k).front.patrol
    (((s.count k 0x20E).patrolWord k w bitErrs).updFront k (fun f => { f with patrol := if w + 1 < 67108864 then w + 1 else 0 })).grantCredits)

end Sys2Proof.Machine
end

