-- ==== Sys2Proof/Machine/Dispatch.lean ====
section
/-! DEFINITION. The meaning of every command: one arm per constructor, each a direct call of the command's meaning. -/

namespace Sys2Proof.Machine

/-- The effect of a command on everything but the queue of waiting commands. -/
def exec (i : Instr) (s : State) : Host.Outcome State Fault Refusal :=
  match i with
  | .cxlMemWrite p hpa be data poison e => Sys2Proof.Machine.execCxlMemWrite p hpa be data poison e s
  | .cxlMemRead p hpa r de => Sys2Proof.Machine.execCxlMemRead p hpa r de s
  | .descriptorFillLand k => Sys2Proof.Machine.execDescriptorFillLand k s
  | .mediaReadStep k rid r => Sys2Proof.Machine.execMediaReadStep k rid r s
  | .patientReadDeadline k rid => Sys2Proof.Machine.execPatientReadDeadline k rid s
  | .treeNodeFetch k rid parent r => Sys2Proof.Machine.execTreeNodeFetch k rid parent r s
  | .readFillLand k rid cws => Sys2Proof.Machine.execReadFillLand k rid cws s
  | .backgroundRepair k rid r => Sys2Proof.Machine.execBackgroundRepair k rid r s
  | .repairFrameRetry k => Sys2Proof.Machine.execRepairFrameRetry k s
  | .directorySetRebuild k r => Sys2Proof.Machine.execDirectorySetRebuild k r s
  | .sramWordRewrite k => Sys2Proof.Machine.execSramWordRewrite k s
  | .sramPatrol k bitErrs => Sys2Proof.Machine.execSramPatrol k bitErrs s
  | .linkTraining p host => Sys2Proof.Machine.execLinkTraining p host s
  | .ideKmMessage p mem key => Sys2Proof.Machine.execIdeKmMessage p mem key s
  | .ideMacFailure p mem => Sys2Proof.Machine.execIdeMacFailure p mem s
  | .gpfRequest p phase2 => Sys2Proof.Machine.execGpfRequest p phase2 s
  | .perst p => Sys2Proof.Machine.execPerst p s
  | .hotReset p => Sys2Proof.Machine.execHotReset p s
  | .relayFecFailure a f => Sys2Proof.Machine.execRelayFecFailure a f s
  | .relayRetrain a b ok => Sys2Proof.Machine.execRelayRetrain a b ok s
  | .meterWindow p => Sys2Proof.Machine.execMeterWindow p s
  | .shadowRefresh p off => Sys2Proof.Machine.execShadowRefresh p off s
  | .registerWrite p off wide v => Sys2Proof.Machine.execRegisterWrite p off wide v s
  | .regLowHalfRead p r => Sys2Proof.Machine.execRegLowHalfRead p r s
  | .secAlarmClear p => Sys2Proof.Machine.execSecAlarmClear p s
  | .tqDataRead p wide => Sys2Proof.Machine.execTqDataRead p wide s
  | .tqFlush p v => Sys2Proof.Machine.execTqFlush p v s
  | .unsupportedOpcode src op => Sys2Proof.Machine.execUnsupportedOpcode src op s
  | .identify src => Sys2Proof.Machine.execIdentify src s
  | .backgroundOperationStatus src => Sys2Proof.Machine.execBackgroundOperationStatus src s
  | .getResponseMessageLimit src => Sys2Proof.Machine.execGetResponseMessageLimit src s
  | .requestAbortBackgroundOperation src => Sys2Proof.Machine.execRequestAbortBackgroundOperation src s
  | .backgroundAbortBoundary p => Sys2Proof.Machine.execBackgroundAbortBoundary p s
  | .getEventRecords src log => Sys2Proof.Machine.execGetEventRecords src log s
  | .clearEventRecords src log all handles => Sys2Proof.Machine.execClearEventRecords src log all handles s
  | .getEventInterruptPolicy src => Sys2Proof.Machine.execGetEventInterruptPolicy src s
  | .setEventInterruptPolicy src inf warn fail fat => Sys2Proof.Machine.execSetEventInterruptPolicy src inf warn fail fat s
  | .getFwInfo src => Sys2Proof.Machine.execGetFwInfo src s
  | .transferFw src slot act off data => Sys2Proof.Machine.execTransferFw src slot act off data s
  | .fwTransferEnd p readBack => Sys2Proof.Machine.execFwTransferEnd p readBack s
  | .activateFw src slot online => Sys2Proof.Machine.execActivateFw src slot online s
  | .fwReadyPoint ms => Sys2Proof.Machine.execFwReadyPoint ms s
  | .fwActivationTimeout ms => Sys2Proof.Machine.execFwActivationTimeout ms s
  | .getTimestamp src => Sys2Proof.Machine.execGetTimestamp src s
  | .setTimestamp src ns => Sys2Proof.Machine.execSetTimestamp src ns s
  | .getSupportedLogs src => Sys2Proof.Machine.execGetSupportedLogs src s
  | .getLog src effects off len => Sys2Proof.Machine.execGetLog src effects off len s
  | .identifyMemoryDevice src => Sys2Proof.Machine.execIdentifyMemoryDevice src s
  | .getPartitionInfo src => Sys2Proof.Machine.execGetPartitionInfo src s
  | .getLsa src off len => Sys2Proof.Machine.execGetLsa src off len s
  | .setLsa src off data => Sys2Proof.Machine.execSetLsa src off data s
  | .getHealthInfo src => Sys2Proof.Machine.execGetHealthInfo src s
  | .getAlertConfiguration src => Sys2Proof.Machine.execGetAlertConfiguration src s
  | .setAlertConfiguration src cfg => Sys2Proof.Machine.execSetAlertConfiguration src cfg s
  | .getShutdownState src => Sys2Proof.Machine.execGetShutdownState src s
  | .setShutdownState src v => Sys2Proof.Machine.execSetShutdownState src v s
  | .getPoisonList src base len => Sys2Proof.Machine.execGetPoisonList src base len s
  | .injectPoison src dpa => Sys2Proof.Machine.execInjectPoison src dpa s
  | .clearPoison src dpa data => Sys2Proof.Machine.execClearPoison src dpa data s
  | .getScanMediaCapabilities src base len => Sys2Proof.Machine.execGetScanMediaCapabilities src base len s
  | .scanMedia src base len => Sys2Proof.Machine.execScanMedia src base len s
  | .getScanMediaResults src => Sys2Proof.Machine.execGetScanMediaResults src s
  | .identifyExt src pl => Sys2Proof.Machine.execIdentifyExt src pl s
  | .profileGet src pl => Sys2Proof.Machine.execProfileGet src pl s
  | .profileSelect src pl => Sys2Proof.Machine.execProfileSelect src pl s
  | .profileWrite src pl => Sys2Proof.Machine.execProfileWrite src pl s
  | .regionCreate src pl => Sys2Proof.Machine.execRegionCreate src pl s
  | .regionModify src pl => Sys2Proof.Machine.execRegionModify src pl s
  | .regionDestroy src pl => Sys2Proof.Machine.execRegionDestroy src pl s
  | .regionDestroyComplete r => Sys2Proof.Machine.execRegionDestroyComplete r s
  | .regionDiscard src pl => Sys2Proof.Machine.execRegionDiscard src pl s
  | .discardPage r group => Sys2Proof.Machine.execDiscardPage r group s
  | .discardComplete r => Sys2Proof.Machine.execDiscardComplete r s
  | .regionQuery src pl => Sys2Proof.Machine.execRegionQuery src pl s
  | .apertureSet src pl => Sys2Proof.Machine.execApertureSet src pl s
  | .writeGroupFence src pl => Sys2Proof.Machine.execWriteGroupFence src pl s
  | .writeGroupCommit => Sys2Proof.Machine.execWriteGroupCommit s
  | .keyLoad src pl => Sys2Proof.Machine.execKeyLoad src pl s
  | .keyRetire src pl => Sys2Proof.Machine.execKeyRetire src pl s
  | .keyRetireDrained slot => Sys2Proof.Machine.execKeyRetireDrained slot s
  | .keyQuarantineEnd slot => Sys2Proof.Machine.execKeyQuarantineEnd slot s
  | .keyQuery src pl => Sys2Proof.Machine.execKeyQuery src pl s
  | .regionRekey src pl => Sys2Proof.Machine.execRegionRekey src pl s
  | .rekeyChunkComplete r => Sys2Proof.Machine.execRekeyChunkComplete r s
  | .epochSet src pl => Sys2Proof.Machine.execEpochSet src pl s
  | .beatStatus src pl => Sys2Proof.Machine.execBeatStatus src pl s
  | .lensCalibrate src pl => Sys2Proof.Machine.execLensCalibrate src pl s
  | .pacerGet src pl => Sys2Proof.Machine.execPacerGet src pl s
  | .pacerSet src pl => Sys2Proof.Machine.execPacerSet src pl s
  | .arbWeightsSet src pl => Sys2Proof.Machine.execArbWeightsSet src pl s
  | .arbParamArrive k j => Sys2Proof.Machine.execArbParamArrive k j s
  | .arbStats src pl => Sys2Proof.Machine.execArbStats src pl s
  | .countersConfig src pl => Sys2Proof.Machine.execCountersConfig src pl s
  | .countersConfigApply k => Sys2Proof.Machine.execCountersConfigApply k s
  | .countersUserAccess src pl => Sys2Proof.Machine.execCountersUserAccess src pl s
  | .ledgerRead src pl => Sys2Proof.Machine.execLedgerRead src pl s
  | .ledgerWrite src pl => Sys2Proof.Machine.execLedgerWrite src pl s
  | .ledgerStore src pl => Sys2Proof.Machine.execLedgerStore src pl s
  | .ledgerStoreEnd us => Sys2Proof.Machine.execLedgerStoreEnd us s
  | .healthExt src pl => Sys2Proof.Machine.execHealthExt src pl s
  | .retireList src pl => Sys2Proof.Machine.execRetireList src pl s
  | .sramRetire src pl => Sys2Proof.Machine.execSramRetire src pl s
  | .sramRetireComplete k => Sys2Proof.Machine.execSramRetireComplete k s
  | .sliceQuiesce src pl => Sys2Proof.Machine.execSliceQuiesce src pl s
  | .sliceQuiesced k => Sys2Proof.Machine.execSliceQuiesced k s
  | .quiesceTimeout k => Sys2Proof.Machine.execQuiesceTimeout k s
  | .sliceReset src pl => Sys2Proof.Machine.execSliceReset src pl s
  | .portReset src pl => Sys2Proof.Machine.execPortReset src pl s
  | .packageReset src pl => Sys2Proof.Machine.execPackageReset src pl s
  | .packageResetAssert => Sys2Proof.Machine.execPackageResetAssert s
  | .bootRecordGet src pl => Sys2Proof.Machine.execBootRecordGet src pl s
  | .railLogGet src pl => Sys2Proof.Machine.execRailLogGet src pl s
  | .debugUnlock src pl dbgEn => Sys2Proof.Machine.execDebugUnlock src pl dbgEn s
  | .telemetryConfig src pl => Sys2Proof.Machine.execTelemetryConfig src pl s
  | .holdupStatus src pl => Sys2Proof.Machine.execHoldupStatus src pl s
  | .watchdog ms => Sys2Proof.Machine.execWatchdog ms s
  | .lockup => Sys2Proof.Machine.execLockup s
  | .managementRestartComplete => Sys2Proof.Machine.execManagementRestartComplete s
  | .beatEdge high since => Sys2Proof.Machine.execBeatEdge high since s
  | .beatCodeFrame => Sys2Proof.Machine.execBeatCodeFrame s
  | .beatLost ns => Sys2Proof.Machine.execBeatLost ns s
  | .derivedBeat => Sys2Proof.Machine.execDerivedBeat s
  | .beatReturn high since derivedAgo => Sys2Proof.Machine.execBeatReturn high since derivedAgo s
  | .epochProvisional => Sys2Proof.Machine.execEpochProvisional s
  | .exactPass k => Sys2Proof.Machine.execExactPass k s
  | .measuredPassBlock k key reply => Sys2Proof.Machine.execMeasuredPassBlock k key reply s
  | .lapBoundary k => Sys2Proof.Machine.execLapBoundary k s
  | .splitEnd k => Sys2Proof.Machine.execSplitEnd k s
  | .telemetrySnapshot => Sys2Proof.Machine.execTelemetrySnapshot s
  | .rhoSample k => Sys2Proof.Machine.execRhoSample k s
  | .holdupCeilingRecompute => Sys2Proof.Machine.execHoldupCeilingRecompute s
  | .ageSweep k => Sys2Proof.Machine.execAgeSweep k s
  | .dupEntryExpire p tag => Sys2Proof.Machine.execDupEntryExpire p tag s
  | .calibrationInterval k j d => Sys2Proof.Machine.execCalibrationInterval k j d s
  | .calibrationRead k j d blk reply => Sys2Proof.Machine.execCalibrationRead k j d blk reply s
  | .scrubRead k j d blk page sector r => Sys2Proof.Machine.execScrubRead k j d blk page sector r s
  | .scrubPassLate k j d => Sys2Proof.Machine.execScrubPassLate k j d s
  | .treeWritebackDeadline k level idx => Sys2Proof.Machine.execTreeWritebackDeadline k level idx s
  | .mapRecordMandatory k => Sys2Proof.Machine.execMapRecordMandatory k s
  | .frameDirtyAgeExpire k f => Sys2Proof.Machine.execFrameDirtyAgeExpire k f s
  | .tempReadout k j d reply crc => Sys2Proof.Machine.execTempReadout k j d reply crc s
  | .channelTracking k x => Sys2Proof.Machine.execChannelTracking k x s
  | .alertAsserted k j ns sts => Sys2Proof.Machine.execAlertAsserted k j ns sts s
  | .alertStuckTimeout k j us => Sys2Proof.Machine.execAlertStuckTimeout k j us s
  | .burstLost k j x => Sys2Proof.Machine.execBurstLost k j x s
  | .channelRetrain k j t r => Sys2Proof.Machine.execChannelRetrain k j t r s
  | .arbitrationDecision k x => Sys2Proof.Machine.execArbitrationDecision k x s
  | .grantEffect k j g => Sys2Proof.Machine.execGrantEffect k j g s
  | .tenureEnd k j => Sys2Proof.Machine.execTenureEnd k j s
  | .holdLimitCutoff k j => Sys2Proof.Machine.execHoldLimitCutoff k j s
  | .lockOwnerFault k x => Sys2Proof.Machine.execLockOwnerFault k x s
  | .bankResume k j d b => Sys2Proof.Machine.execBankResume k j d b s
  | .runWindowStart k j d b now => Sys2Proof.Machine.execRunWindowStart k j d b now s
  | .runWindowEnd k j d b now => Sys2Proof.Machine.execRunWindowEnd k j d b now s
  | .arrayOperationComplete k j d b => Sys2Proof.Machine.execArrayOperationComplete k j d b s
  | .journalDrain k pk r => Sys2Proof.Machine.execJournalDrain k pk r s
  | .drainCommit k j d => Sys2Proof.Machine.execDrainCommit k j d s
  | .journalWriteFail k j d => Sys2Proof.Machine.execJournalWriteFail k j d s
  | .foldOpen k key => Sys2Proof.Machine.execFoldOpen k key s
  | .foldPageProgram k j d olds => Sys2Proof.Machine.execFoldPageProgram k j d olds s
  | .foldRowVerify k j row pages => Sys2Proof.Machine.execFoldRowVerify k j row pages s
  | .foldCommit k j d => Sys2Proof.Machine.execFoldCommit k j d s
  | .blockReset k j d blk => Sys2Proof.Machine.execBlockReset k j d blk s
  | .gcStart k j d => Sys2Proof.Machine.execGcStart k j d s
  | .gcPageCopy k j d olds back => Sys2Proof.Machine.execGcPageCopy k j d olds back s
  | .gcRelease k j d => Sys2Proof.Machine.execGcRelease k j d s
  | .mapJournalCopy k => Sys2Proof.Machine.execMapJournalCopy k s
  | .checkpoint k => Sys2Proof.Machine.execCheckpoint k s
  | .groupReencryption k group olds => Sys2Proof.Machine.execGroupReencryption k group olds s
  | .treeNodeWriteback k level idx r => Sys2Proof.Machine.execTreeNodeWriteback k level idx r s
  | .powerOnReset => Sys2Proof.Machine.execPowerOnReset s
  | .brownOut ns => Sys2Proof.Machine.execBrownOut ns s
  | .resetPin ns => Sys2Proof.Machine.execResetPin ns s
  | .dbgReset warm => Sys2Proof.Machine.execDbgReset warm s
  | .clockFailure k => Sys2Proof.Machine.execClockFailure k s
  | .servicePllUnlock => Sys2Proof.Machine.execServicePllUnlock s
  | .dbgEnFall => Sys2Proof.Machine.execDbgEnFall s
  | .debugMemoryAccess op => Sys2Proof.Machine.execDebugMemoryAccess op s
  | .bootStepAttempt tgt step o => Sys2Proof.Machine.execBootStepAttempt tgt step o s
  | .bootRecordUart => Sys2Proof.Machine.execBootRecordUart s
  | .coldStartPrecondition ms => Sys2Proof.Machine.execColdStartPrecondition ms s
  | .railGroupEnable => Sys2Proof.Machine.execRailGroupEnable s
  | .railUpTimeout r us => Sys2Proof.Machine.execRailUpTimeout r us s
  | .epochWaitEnd => Sys2Proof.Machine.execEpochWaitEnd s
  | .railSample r mv => Sys2Proof.Machine.execRailSample r mv s
  | .railWarning r mv ns => Sys2Proof.Machine.execRailWarning r mv ns s
  | .railFailure r kind => Sys2Proof.Machine.execRailFailure r kind s
  | .railRecoveryAttempt r ms => Sys2Proof.Machine.execRailRecoveryAttempt r ms s
  | .railRecovered r ms => Sys2Proof.Machine.execRailRecovered r ms s
  | .sramArrayRailLoss => Sys2Proof.Machine.execSramArrayRailLoss s
  | .pmbAlert r word ok => Sys2Proof.Machine.execPmbAlert r word ok s
  | .powerFailTrigger t => Sys2Proof.Machine.execPowerFailTrigger t s
  | .acceptanceWindowClose ns => Sys2Proof.Machine.execAcceptanceWindowClose ns s
  | .flushSliceDone k => Sys2Proof.Machine.execFlushSliceDone k s
  | .flushAbort r => Sys2Proof.Machine.execFlushAbort r s
  | .holdupMarginMeasured us flushUs => Sys2Proof.Machine.execHoldupMarginMeasured us flushUs s
  | .warmReturn ms => Sys2Proof.Machine.execWarmReturn ms s
  | .thermalSample readings service => Sys2Proof.Machine.execThermalSample readings service s
  | .sramTimingSetChange k => Sys2Proof.Machine.execSramTimingSetChange k s
  | .keeperWrite bytes => Sys2Proof.Machine.execKeeperWrite bytes s
  | .keeperRead n => Sys2Proof.Machine.execKeeperRead n s
  | .hdmDecoderCommit p n d => Sys2Proof.Machine.execHdmDecoderCommit p n d s
  | .frOverBound k rid => Sys2Proof.Machine.execFrOverBound k rid s
  | .refclkStop p => Sys2Proof.Machine.execRefclkStop p s
  | .jtagBoundaryScanInstruction selected => Sys2Proof.Machine.execJtagBoundaryScanInstruction selected s
  | .resetSourceRelease src => Sys2Proof.Machine.execResetSourceRelease src s

end Sys2Proof.Machine
end

