-- ==== Sys2Proof/Safety.lean ====
section
/-! DEFINITION. What a safe step of this block is, and the words that statements about it use: a command answers a next state of which
something holds, and a mailbox takes a command at once. -/

namespace Sys2Proof

/-- The outcome is a next state. No command of the table stops the device, so every step of a safe run is one. -/
def Safe (o : Host.Outcome Machine.State Machine.Fault Machine.Refusal) : Prop := ∃ t, o = .next t

namespace Machine

/-- Command i at state s answers a next state of which P holds. -/
def Gives (i : Instr) (s : State) (P : State → Prop) : Prop := ∃ t, exec i s = .next t ∧ P t

/-- Head p takes a mailbox command at once: it is present and enabled and its CXL.io stream is not Insecure (R62), Mailbox Interface Ready is set,
no doorbell of it is held, no activation, ledger store or fence runs, its doorbell interrupt is off, and no response that a port reset has cut is
still to come (R76). -/
def State.mailReady (s : State) (p : Port) : Bool :=
  s.ioOpen p && (s.head p).enabled && (s.head p).mboxReady && (s.head p).doorbells.isEmpty && s.firm.act.isNone && s.firm.store.isNone &&
    s.firm.fences.isEmpty && !(s.head p).dbInt && !(s.head p).muted && ((s.head p).bg.isSome || !(s.head p).mutedBg)

/-- Head p holds a role (Table 02-4), or none is asked. -/
def State.roleHeld (s : State) (p : Port) (role : Option Nat) : Bool :=
  match role with
  | none => true
  | some r => (s.roles p).getLsbD r

/-- Head p takes an untagged vendor command at once: its mailbox is ready, the flush does not run, the payload is long enough and the role
asked is held. -/
def State.vendorReady (s : State) (p : Port) (role : Option Nat) (min : Nat) (pl : List Byte) : Bool :=
  s.mailReady p && s.power.flush == .idle && decide (min ≤ pl.length) && decide (pl.length ≤ 65536) && decide (field pl 0 2 = 0) && s.roleHeld p role

/-- What a standard command answers when it changes nothing else. -/
def State.said (s : State) (p : Port) (c : Rc) (r : StdReply) : State := { s with out := .reply (.head p) c r :: s.out }

/-- What an untagged vendor command answers when it changes nothing else: the output from byte 8. -/
def State.told (s : State) (p : Port) (out : List Byte) : State := { s with out := .mailbox (.head p) .success (vHead 0 0 0 ++ out) :: s.out }

/-- What an untagged vendor command that runs in the background leaves at its head: Background Started, and the work to do. -/
def State.started (s : State) (p : Port) (op : BitVec 16) (k : BgKind) : State :=
  { s.updHead p (fun h => { h with bg := some ⟨k, op, 0, 0, false, 0⟩ }) with out := .mailbox (.head p) .backgroundStarted (vHead 0 0 0) :: s.out }

/-- A background command of head p has ended with a return code; where a port reset has cut its response, the status of the last one stays (R76). -/
def State.bgEnded (s t : State) (p : Port) (c : Rc) : Prop :=
  ∀ b, (s.head p).bg = some b → (t.head p).bg = none ∧ (t.head p).bgLast = if (s.head p).mutedBg then (s.head p).bgLast else some ⟨b.op, c, 0⟩

/-- A request of head p at a host physical address is accepted, decodes to an address of the mapped region given, whose descriptor the head's
lookaside cache holds, and passes its ingress checks. -/
def State.reaches (s : State) (p : Port) (hpa : Nat) (write : Bool) (region : Nat) (d : Desc) (unit dpa : Nat) : Prop :=
  s.accepts p write = true ∧ s.hasData p = true ∧ (s.head p).decode hpa = some dpa ∧ dpa % 64 = 0 ∧ SMap.get? s.index (dpa / 2 ^ 28) = some ⟨region, unit⟩ ∧
    (s.slice p).fill = none ∧ (s.slice p).waiting = [] ∧ (s.slice p).cacheOn = true ∧ (∃ n pin, (s.slice p).cacheFind region = some (n, ⟨region, pin, some d⟩)) ∧
    SMap.get? s.desc region = some d ∧ s.ingressCheck d p write = 0

/-- The line's owner is the head's own slice, which works and holds no request back, no set of it has just been rebuilt, and nothing makes the line
unverifiable or lists it as poisoned. -/
def State.ownsLine (s : State) (p : Port) (d : Desc) (unit dpa : Nat) : Prop :=
  fin8 (s.prism d unit dpa).slice = p ∧ (s.slice p).st = .working ∧ (s.slice p).heldReqs = [] ∧ (s.slice p).front.rebuiltSet = none ∧ s.unverNode p (dpa / 64) = none ∧ (s.slice p).front.poison.contains (dpa / 64) = false

/-- Extra time of a 68-byte flit link (R9). -/
def State.flitExtra (s : State) (p : Port) : Nat := if (s.head p).link.any (fun l => l.flit == .f68 && decide (l.rate ≤ 32)) then 7000 else 0

/-- Head p of t holds what a port reach leaves of its port (Table 14-2), s being the state before: decoders, IDE streams, MSI-X table, configuration space,
latched high halves and viral state at their reset values, no credit granted, and the telemetry queue flushed and disabled, its other registers as they were. -/
def PortAtReset (s t : State) (p : Port) : Prop :=
  (t.head p).dec = Vector.replicate 8 Decoder.reset ∧ (t.head p).ideMem = IdeStream.reset ∧ (t.head p).ideIo = IdeStream.reset ∧
    (t.head p).msix = Vector.replicate 8 Msix.reset ∧ (t.head p).pba = 0 ∧ (t.head p).bar0 = 0 ∧ (t.head p).bar2 = 0 ∧ (t.head p).l1Enable = false ∧
    (t.head p).viralEn = false ∧ (t.head p).viral = false ∧ (t.head p).tq = (s.head p).tq.disabled ∧ (t.head p).latch = [] ∧ (t.head p).credD = 0 ∧
    (t.head p).credR = 0 ∧ (t.head p).window = 0 ∧ (t.head p).userRead = false

/-- What a cold reset leaves (R75, R234, R451–R454, Table 14-2): every state at its reset value but what flash, medium, pins and fuses hold, and the ledger's shadow,
of which a store that the loss of power cut short leaves each record in one of its two copies (R486). -/
def ColdFrom (s t : State) (brown : Bool) : Prop :=
  t.desc = [] ∧ t.index = [] ∧ t.keys = [] ∧ t.beat = { Beat.reset with salt := t.beat.salt } ∧ t.led = State.reset.led ∧ t.rst.todo = State.reset.rst.todo ∧
    (∃ m, t.shadow = s.shadow.cutShort m) ∧ t.fused = s.fused ∧ t.pending = s.pending ∧ t.rst.brown = brown ∧ t.rst.pinHeld = s.rst.pinHeld ∧ t.firm.area0 = s.firm.area0 ∧
    t.firm.area1 = s.firm.area1 ∧
    (∀ p, (t.head p).lsa = (s.head p).lsa ∧ (t.head p).held = (s.head p).held ∧ (t.head p).enabled = false ∧ (t.head p).link = none ∧ (t.head p).logs = Vector.replicate 4 Log.reset ∧
      (t.head p).cause.lastReach = 1 ∧ (t.head p).cause.bits.getLsbD 0 = !brown ∧ (t.head p).cause.bits.getLsbD 1 = brown) ∧
    (∀ k, (t.slice k).front = Slice.reset.front ∧ (t.slice k).tree.pinned = (s.slice k).tree.pinned ∧
      ((∀ j, (s.chan k j).tenures = []) → (t.slice k).media = (s.slice k).media.cold))

/-- What every step keeps of the bounded stores: each event log holds at most 256 records (R56), each duplicate table at most 64 entries (R71),
each telemetry queue at most 512 words (R505), and the byte memories are in their canonical form: labels storage, and the two pages of the
rail configuration in the ledger SRAM and in its shadow. -/
def State.bounded (s : State) : Prop :=
  (∀ p : Port, (∀ i : Fin 4, ((s.head p).logs[i]).recs.length ≤ 256) ∧ (s.head p).dup.length ≤ 64 ∧ (s.head p).tq.q.length ≤ 512 ∧
    Mem.wf (s.head p).lsa = true) ∧
  Mem.wf s.led.rail8 = true ∧ Mem.wf s.led.rail9 = true ∧ Mem.wf s.shadow.led.rail8 = true ∧ Mem.wf s.shadow.led.rail9 = true

/-- What a vendor command that is turned away leaves: its return code, and its extended status in both places (Table 02-5). -/
def State.refused (s : State) (src : Src) (pl : List Byte) (c : Rc) (ext : Nat) : State :=
  { s with out := .mailbox src c (vHead ext (BitVec.ofNat 16 (field pl 0 2)).toNat ext) :: s.out }

/-- What a request decided at ingress leaves: its completion, of zeros, and no line, table or region changed. -/
def State.decidedAtIngress (s t : State) (p : Port) (write poison : Bool) : Prop :=
  (∃ dl v, t.out.head? = some (.cxl p s.nextId write 0 poison dl v ((if write then 29000 else 27000) + s.flitExtra p))) ∧ t.nextId = s.nextId + 1 ∧
    t.desc = s.desc ∧ t.index = s.index ∧ t.keys = s.keys ∧ ∀ k, (t.slice k).front = (s.slice k).front ∧ (t.slice k).media = (s.slice k).media

/-- Every vendor command of a source with one payload. -/
def vendorCommands (src : Src) (pl : List Byte) (dbgEn : Bool) : List Instr :=
  [.identifyExt src pl, .profileGet src pl, .profileSelect src pl, .profileWrite src pl, .regionCreate src pl, .regionModify src pl, .regionDestroy src pl,
    .regionDiscard src pl, .regionQuery src pl, .apertureSet src pl, .writeGroupFence src pl, .keyLoad src pl, .keyRetire src pl, .keyQuery src pl,
    .regionRekey src pl, .epochSet src pl, .beatStatus src pl, .lensCalibrate src pl, .pacerGet src pl, .pacerSet src pl] ++
  [.arbWeightsSet src pl, .arbStats src pl, .countersConfig src pl, .countersUserAccess src pl, .ledgerRead src pl, .ledgerWrite src pl, .ledgerStore src pl,
    .healthExt src pl, .retireList src pl, .sramRetire src pl, .sliceQuiesce src pl, .sliceReset src pl, .portReset src pl, .packageReset src pl,
    .bootRecordGet src pl, .railLogGet src pl, .debugUnlock src pl dbgEn, .telemetryConfig src pl, .holdupStatus src pl]

end Machine

end Sys2Proof
end

