-- ==== Sys2Proof/Certificates/Slice0/Obligations.lean ====
section
/-! DEFINITION. The statements about the block. Each docstring names the rules of spec/ that it follows; a clause that rests on a choice of the
model's says so and names the log entry. -/

open Sys2Proof Sys2Proof.Machine

/-- The block runs one command at a time, first in, first out: with command c at the front of the queue, a step is exec of c on the state with the
queue's rest; with no command waiting the block idles (log entry 1). No command stops it: every command answers a next state. -/
def Obligations.StepsRunTheFrontCommand : Prop :=
  (∀ (c : Instr) (s : State), step { s with pending := c :: s.pending } = exec c s) ∧ (∀ s : State, s.pending = [] → step s = .next s) ∧ ∀ (c : Instr) (s : State), Safe (exec c s)

/-- The state after reset meets the invariant that every step keeps, and has no command waiting. -/
def Obligations.ResetIsBounded : Prop := State.reset.bounded ∧ State.reset.pending = []

/-- The build is fixed (R3): no step changes the fuses, and so the slices present; a step takes exactly the front command off the queue. -/
def Obligations.EveryStepKeepsTheBuild : Prop :=
  ∀ (s t : State), step s = .next t → t.fused = s.fused ∧ t.nSlices = s.nSlices ∧ t.pending = s.pending.tail

/-- R56, R71, R505: every step keeps the event logs within 256 records, the duplicate tables within 64 entries and the telemetry queues within 512
words, and the byte memories in canonical form. -/
def Obligations.EveryStepKeepsTheBounds : Prop :=
  ∀ (s t : State), s.bounded → step s = .next t → t.bounded

/-- R380: while the power-fail flush runs, every vendor command that is taken up is refused with 0x0701, and nothing else changes, the duplicate
tables among it. -/
def Obligations.TheFlushRefusesVendorCommands : Prop :=
  ∀ (s : State) (src : Src) (pl : List Byte) (dbgEn : Bool), s.power.flush ≠ .idle →
    ((∃ p, src = .head p ∧ s.mailReady p = true) ∨ (src = .i3c ∧ s.door .i3c false = .run)) →
    ∀ i ∈ vendorCommands src pl dbgEn, exec i s = .next (s.refused src pl .vendorSpecific 0x0701)

/-- R71, R72, R364, R365, R378, Tables 02-6 and 11-4: the checks of a vendor command in their order: one too short, or from a head without the role,
changes nothing; a retry of a tagged command that has ended gets its stored response again and is not run, one still running is Busy, another payload
under its tag is refused. -/
def Obligations.RefusalsAndRetries : Prop :=
  ∀ (s : State) (p : Port) (pl : List Byte), s.mailReady p = true → s.power.flush = .idle → pl.length ≤ 65536 →
    (pl.length < 4 → ∀ i ∈ [Instr.identifyExt (.head p) pl, .regionDestroy (.head p) pl, .keyLoad (.head p) pl, .epochSet (.head p) pl, .ledgerStore (.head p) pl],
      exec i s = .next (s.refused (.head p) pl .invalidPayloadLength 0)) ∧
    (80 ≤ pl.length →
      ((s.roles p).getLsbD 1 = false → ∀ i ∈ [Instr.regionCreate (.head p) pl, .regionModify (.head p) pl, .regionDestroy (.head p) pl, .regionDiscard (.head p) pl, .epochSet (.head p) pl,
        .pacerSet (.head p) pl, .arbWeightsSet (.head p) pl, .countersConfig (.head p) pl, .countersUserAccess (.head p) pl, .ledgerRead (.head p) pl, .ledgerStore (.head p) pl,
        .sramRetire (.head p) pl, .sliceQuiesce (.head p) pl, .sliceReset (.head p) pl, .portReset (.head p) pl, .packageReset (.head p) pl, .profileSelect (.head p) pl],
        exec i s = .next (s.refused (.head p) pl .vendorSpecific 0x0101)) ∧
      ((s.roles p).getLsbD 2 = false → ∀ i ∈ [Instr.keyLoad (.head p) pl, .keyRetire (.head p) pl, .keyQuery (.head p) pl, .regionRekey (.head p) pl],
        exec i s = .next (s.refused (.head p) pl .vendorSpecific 0x0101)) ∧
      (field pl 0 2 ≠ 0 → (s.roles p).getLsbD 1 = true → ∀ e : DupEntry, (s.head p).dup.find? (fun e => e.tag = BitVec.ofNat 16 (field pl 0 2)) = some e →
        ∀ x ∈ [((0xC012 : BitVec 16), Instr.regionDestroy (.head p) pl), (0xC030, .epochSet (.head p) pl), (0xC041, .pacerSet (.head p) pl), (0xC072, .ledgerStore (.head p) pl)],
          (e.digest ≠ digestOf x.1 pl → exec x.2 s = .next (s.refused (.head p) pl .vendorSpecific 0x0103)) ∧
          (e.digest = digestOf x.1 pl → (e.rsp = none → exec x.2 s = .next (s.refused (.head p) pl .busy 0x0102)) ∧
            (∀ c out, e.rsp = some (c, out) → exec x.2 s = .next ((s.count p 0x10D).emit (.mailbox (.head p) c (leBytes 2 0x0102 ++ out.drop 2)))))))

/-- R66: on a port without DATA every read that is accepted returns all-zero data with poison, and every write completes without effect; neither
enters an event record on any head, and each is counted in event 0x105. -/
def Obligations.PortsWithoutData : Prop :=
  ∀ (s : State) (p : Port) (hpa : Nat) (r : HostRead) (be : BitVec 64) (data : Line) (psn : Bool) (errs : List Nat) (de : DescErr), s.hasData p = false →
    ∀ i w, (i = .cxlMemRead p hpa r de ∧ w = false ∨ i = .cxlMemWrite p hpa be data psn ⟨errs, de⟩ ∧ w = true) → s.accepts p w = true → Gives i s (fun t =>
      s.decidedAtIngress t p w (!w) ∧ (∀ q, (t.head q).logs = (s.head q).logs) ∧
      ∀ n : Fin 16, ((s.slice p).counters[n]).event = 0x105 → ((t.slice p).counters[n]).value = ((s.slice p).counters[n]).value + 1)

/-- R26, R45, R47, R88, R562, Table 03-3: a request that no decoder maps, that meets an unmapped granule or that fails a check of its region is
completed at ingress: a read with poison, or with zero where the region is Discarding; a write changes no line. -/
def Obligations.RequestsRefusedAtIngress : Prop :=
  ∀ (s : State) (p : Port) (hpa : Nat) (r : HostRead) (be : BitVec 64) (data : Line) (psn : Bool) (errs : List Nat), s.hasData p = true →
    ∀ i w, (i = .cxlMemRead p hpa r .none ∧ w = false ∨ i = .cxlMemWrite p hpa be data psn ⟨errs, .none⟩ ∧ w = true) → s.accepts p w = true →
      ((s.head p).decode hpa = none → Gives i s (fun t => s.decidedAtIngress t p w (!w))) ∧
      (∀ dpa, (s.head p).decode hpa = some dpa → (s.slice p).fill = none → (s.slice p).waiting = [] →
        (SMap.get? s.index (dpa / 2 ^ 28) = none → Gives i s (fun t => s.decidedAtIngress t p w (!w))) ∧
        (∀ e n pin d, SMap.get? s.index (dpa / 2 ^ 28) = some e → (s.slice p).cacheOn = true →
          (s.slice p).cacheFind e.region = some (n, ⟨e.region, pin, some d⟩) → s.ingressCheck d p w ≠ 0 →
          Gives i s (fun t => s.decidedAtIngress t p w (!w && s.ingressCheck d p w != 4))))

/-- R56: a full log keeps its oldest records, sets the overflow flag, counts the records lost and keeps the timestamps of the first and the last of
them; clearing records in one head's log leaves the other heads' logs unchanged. -/
def Obligations.FullLogsKeepTheirOldest : Prop :=
  ∀ (s : State) (p : Port) (log : LogId),
    (∀ r : EvRec, 256 ≤ (((s.head p).logs[logIx log]).recs).length → ∀ l, l = ((s.enterLog p log r).head p).logs[logIx log] →
      l.recs = ((s.head p).logs[logIx log]).recs ∧ l.overflow = true ∧ l.lost = ((s.head p).logs[logIx log]).lost + 1 ∧ l.lastLost = r.ts ∧
      l.firstLost = (if ((s.head p).logs[logIx log]).lost = 0 then r.ts else ((s.head p).logs[logIx log]).firstLost)) ∧
    (∀ all hs t q, exec (.clearEventRecords (.head p) log all hs) s = .next t → q ≠ p → (t.head q).logs = (s.head q).logs) ∧
    (s.mailReady p = true → ∀ hs, Gives (.clearEventRecords (.head p) log true hs) s (fun t => (t.head p).logs[logIx log] = ⟨[], false, 0, 0, 0⟩ ∧
      ∀ q, q ≠ p → (t.head q).logs = (s.head q).logs))

/-- R64, R366, R369, R375, Table 11-6: the standard queries without operands answer their values at once and change nothing else; the message limit is
the sideband's, which gives 1,024 bytes, and a head is refused it. R54, R58, R373, R374, Table 11-6: the standard queries with operands in their ranges answer
what they name and change nothing else; the estimated time of a media scan is open (log entry 3). -/
def Obligations.StandardQueriesAnswer : Prop :=
  (∀ s : State, s.door .i3c false = .run → exec (.getResponseMessageLimit .i3c) s = .next { s with out := .reply .i3c .success (.limit 1024) :: s.out }) ∧
  (∀ (s : State) (p : Port), s.mailReady p = true →
    exec (.identify (.head p)) s = .next (s.said p .success .memoryDevice) ∧
    exec (.getResponseMessageLimit (.head p)) s = .next (s.said p .unsupported .none) ∧
    (∀ op, exec (.unsupportedOpcode (.head p) op) s = .next (s.said p .unsupported .none)) ∧
    exec (.getTimestamp (.head p)) s = .next (s.said p .success (.timestamp (s.beat.now.toNat * 1000))) ∧
    exec (.getSupportedLogs (.head p)) s = .next (s.said p .success (.logs effectsLog.length)) ∧
    exec (.getEventInterruptPolicy (.head p)) s = .next (s.said p .success (.policy (s.head p).policy)) ∧
    exec (.identifyMemoryDevice (.head p)) s =
      .next (s.said p .success (.capacity s.granules s.granules 0 0 2097152 256 4096 64 true)) ∧
    exec (.getPartitionInfo (.head p)) s = .next (s.said p .success (.partition s.granules 0 false)) ∧
    exec (.getAlertConfiguration (.head p)) s = .next (s.said p .success (.alerts s.firm.alert)) ∧
    exec (.getShutdownState (.head p)) s = .next (s.said p .success (.shutdown s.shut.value)) ∧
    exec (.getScanMediaResults (.head p)) s = .next (s.said p .success (.scanned ((s.head p).scanResults.map (· * 64)))) ∧
    ((s.head p).bg = none → (s.head p).bgLast = none →
      exec (.backgroundOperationStatus (.head p)) s = .next (s.said p .success (.background false 0 0 .success 0))) ∧
    (∀ b, (s.head p).bg = some b →
      exec (.backgroundOperationStatus (.head p)) s = .next (s.said p .success (.background true b.op b.percent .success 0))) ∧
    (∃ r1 r2, exec (.getFwInfo (.head p)) s = .next (s.said p .success
      (.firmware 2 (s.firm.running.val + 1) ((s.fwRec.next.map (fun a => a.val + 1)).getD 0) r1 r2)))) ∧
  (∀ (s : State) (p : Port), s.mailReady p = true →
    (∀ off len, off + len ≤ 4 * effectsLog.length →
      exec (.getLog (.head p) true off len) s = .next (s.said p .success (.effects ((effectsLog.drop (off / 4)).take (len / 4))))) ∧
    (∀ off len, off + len ≤ 2097152 → len ≤ 65536 → (s.slice p).clkAlive = true →
      exec (.getLsa (.head p) off len) s = .next (s.said p .success (.bytes (Mem.readAll (s.head p).lsa off len)))) ∧
    (∀ log, exec (.getEventRecords (.head p) log) s = .next (s.said p .success
      (.events ((s.head p).logs[logIx log]).recs ((s.head p).logs[logIx log]).overflow ((s.head p).logs[logIx log]).lost
        ((s.head p).logs[logIx log]).firstLost ((s.head p).logs[logIx log]).lastLost))) ∧
    (exec (.getHealthInfo (.head p)) s = .next (s.said p .success
      (.health s.replace s.degraded (s.health.causes.getLsbD 1) (min s.wearUsed 100) (wholeDeg s.hotSlice.2) s.shut.dirty.toNat (s.health.errors[0]).toNat
        ((s.health.errors[2]).toNat + (s.health.errors[3]).toNat + (s.health.errors[4]).toNat)))) ∧
    (∀ base len, base % 64 = 0 → len % 64 = 0 → len / 64 ≤ 4096 → s.rangeStopped base len = false →
      (∀ i, i < len / 64 → s.inAperture p false ((base / 64 + i) * 64) = true) →
      exec (.getPoisonList (.head p) base len) s = .next (s.said p .success (.poison
        (((List.range (len / 64)).map (fun i => base / 64 + i)).filterMap (fun l => (s.poisonOf l).map (fun x => (l * 64, x)))) false 0))) ∧
    (∀ base len, base + len ≤ s.capacity → ∃ n,
      exec (.getScanMediaCapabilities (.head p) base len) s = .next ({ s with free := s.free + 1 }.said p .success (.scanTime n))))

/-- R54, R56, R58, R65, R366, R537, Table 11-6: the standard commands that set a value set exactly it; those that need MANAGE are given it. -/
def Obligations.StandardWritesSet : Prop :=
  ∀ (s : State) (p : Port), s.mailReady p = true →
    (∀ inf warn fail fat, policyOk inf 0 = true → policyOk warn 1 = true → policyOk fail 2 = true → policyOk fat 3 = true →
      inf.mode ≠ 0 → warn.mode ≠ 0 → fail.mode ≠ 0 → fat.mode ≠ 0 →
      exec (.setEventInterruptPolicy (.head p) inf warn fail fat) s =
        .next ((s.updHead p (fun h => { h with policy := #v[inf, warn, fail, fat] })).said p .success .none)) ∧
    (∀ log hs, exec (.clearEventRecords (.head p) log true hs) s =
      .next ((s.updHead p (fun h => { h with logs := h.logs.set (logIx log) ⟨[], false, 0, 0, 0⟩ })).said p .success .none)) ∧
    (∀ b lo hi next, (s.head p).bg = some b → b.kind = .scan lo hi next → s.hasManage p = true →
      exec (.requestAbortBackgroundOperation (.head p)) s =
        .next ((s.updHead p (fun h => { h with bg := some { b with abort := true } })).said p .success .none)) ∧
    (s.hasManage p = true →
      (∀ cfg, exec (.setAlertConfiguration (.head p) cfg) s = .next ({ s with firm := { s.firm with alert := cfg } }.said p .success .none)) ∧
      (∀ v, Gives (.setShutdownState (.head p) v) s (fun t => t.shut = { s.shut with value := v } ∧ t = { s with led := { s.led with shut := t.led.shut }, out := t.out })) ∧
      (∀ off data, data.length ≤ 65536 → off + data.length ≤ 2097152 → (s.slice p).clkAlive = true →
        exec (.setLsa (.head p) off data) s = .next ((s.updHead p (fun h => { h with lsa := Mem.writeAll h.lsa off data })).said p .success .none)) ∧
      (∀ ns : BitVec 64, s.beat.source ≠ 0 → s.beat.epoch = .unfixed → s.beat.now.toNat ≤ ns.toNat / 1000 →
        Gives (.setTimestamp (.head p) ns) s (fun t => t.beat.epoch = .host ∧ t.beat.now.toNat = ns.toNat / 1000)))

/-- R382, R383, R390, R397, R400, R402, R405, R408, R411, R412, R418, R419, R422 (Tables 12-3 to 12-25): a vendor query answers the values held, from
byte 8 of its response, and changes nothing else. A byte of a ledger page whose layout is open is a free value (log entry 3). -/
def Obligations.VendorQueriesAnswer : Prop :=
  ∀ (s : State) (p : Port) (pl : List Byte),
    (s.vendorReady p none 4 pl = true →
      exec (.identifyExt (.head p) pl) s = .next (s.told p s.identity) ∧
      Gives (.beatStatus (.head p) pl) s (fun t => ∃ out, t = s.told p out ∧ field out 0 8 = s.beat.now.toNat ∧ field out 8 8 = s.beat.reg.toNat ∧
        field out 16 8 = s.timeRec.l.toNat ∧ field out 24 8 = s.timeRec.w.toNat ∧ field out 40 8 = s.beat.delta.toNat) ∧
      Gives (.healthExt (.head p) pl) s (fun t => ∃ out, t = s.told p out ∧ field out 4 2 = s.health.causes.toNat ∧ field out 8 4 = s.health.links.toNat) ∧
      Gives (.bootRecordGet (.head p) pl) s (fun t => ∃ out, t = s.told p out ∧ field out 0 4 = s.bootProg.count.toNat ∧
        ∀ n : Fin 14, field out (12 + 12 * n.val) 8 = (s.bootProg.steps[n]).beat.toNat) ∧
      Gives (.holdupStatus (.head p) pl) s (fun t => ∃ out, t = s.told p out ∧ field out 0 8 = s.regHoldup.toNat)) ∧
    (s.vendorReady p none 8 pl = true →
      (field pl 4 1 % 2 = 0 → Gives (.railLogGet (.head p) pl) s (fun t => ∃ out, t = s.told p out ∧
        field out 0 1 = s.railLog.first.toNat ∧ field out 4 8 = s.railLog.beat.toNat ∧ field out 12 4 = s.railLog.failed.toNat)) ∧
      (∀ k : SliceId, field pl 4 1 = k.val → s.present k = true → (s.slice k).clkAlive = true → field pl 5 1 % 2 = 0 → field pl 6 1 ≤ 2 →
        exec (.pacerGet (.head p) pl) s = .next (s.told p (s.pacerOut k (field pl 6 1)))) ∧
      (∀ (k : SliceId) (j : ChanId), field pl 4 1 = k.val → field pl 5 1 = j.val → s.present k = true → (s.slice k).clkAlive = true →
        s.chanAbsent k.val j.val = false → field pl 6 1 % 2 = 0 → exec (.arbStats (.head p) pl) s = .next (s.told p (s.arbOut k j)))) ∧
    (s.vendorReady p none 12 pl = true →
      (field pl 4 2 ≤ 16383 → exec (.regionQuery (.head p) pl) s = .next (s.told p (descBytes (field pl 4 2) (SMap.get? s.desc (field pl 4 2))))) ∧
      (∀ e, field pl 4 2 = 0xFFFF → field pl 8 4 < s.granules → SMap.get? s.index (field pl 8 4) = some e →
        exec (.regionQuery (.head p) pl) s = .next (s.told p (descBytes e.region (SMap.get? s.desc e.region)))) ∧
      (∀ k : SliceId, field pl 4 1 = k.val → s.present k = true → (s.slice k).clkAlive = true → field pl 5 1 ≤ 2 →
        Gives (.retireList (.head p) pl) s (fun t => ∃ out, t = s.told p out ∧
          field out 0 4 = (s.retireEntries k (field pl 5 1)).length % 2 ^ 32 ∧
          out.drop 8 = (((s.retireEntries k (field pl 5 1)).drop (field pl 8 4)).take 63).flatten))) ∧
    (s.vendorReady p none 14 pl = true → ∀ n, s.profNamed (field pl 4 1) = some n → field pl 8 4 < 16384 → field pl 12 2 ≠ 0 → field pl 12 2 ≤ 1000 →
      Gives (.profileGet (.head p) pl) s (fun t => ∃ out, t = s.told p out ∧ field out 0 1 = n ∧
        out.drop 16 = (List.range (field pl 12 2)).map (fun i => ((s.profCopies n).cur.getD s.factoryProfile).getD ((field pl 8 4 + i) % 16384) 0))) ∧
    (s.vendorReady p (some 2) 8 pl = true → field pl 4 2 ≠ 0 → field pl 4 2 ≤ 2047 → field pl 6 2 ≠ 0 → field pl 6 2 ≤ 63 →
      Gives (.keyQuery (.head p) pl) s (fun t => ∃ out, t = s.told p out ∧ field out 0 2 = min (field pl 6 2) (2048 - field pl 4 2) ∧
        ∀ i, i < min (field pl 6 2) (2048 - field pl 4 2) → field out (8 + 16 * i) 2 = field pl 4 2 + i ∧ field out (10 + 16 * i) 1 = s.slotSt (field pl 4 2 + i) % 256)) ∧
    (s.vendorReady p (some 1) 10 pl = true → field pl 4 2 ≤ 255 → field pl 6 2 ≤ 1023 → field pl 8 2 ≠ 0 → field pl 8 2 ≤ 1008 →
      Gives (.ledgerRead (.head p) pl) s (fun t => ∃ out, t = { s with free := s.free + 1 }.told p out ∧
        out.drop 8 = (List.range (field pl 8 2)).map (fun i => s.led.byte s.free (field pl 4 2) ((field pl 6 2 + i) % 1024))))

/-- R314, R315, R403, R197, R198, R404, R406, R407, R523, R528 (Tables 12-13, 12-15, 12-18): the commands that set the Pacer, the arbiters, the
counters and the user-read mask leave what they set waiting in each slice named, and change nothing else. R197, R198, R523: the settings that wait
take effect: arbiter weights armed with their hold limit, counters configured in one instant. -/
def Obligations.EngineSettingsWaitAndArrive : Prop :=
  (∀ (s : State) (p : Port) (pl : List Byte),
    (s.vendorReady p (some 1) 16 pl = true → field pl 4 1 < 2 ^ s.nSlices → (∀ k ∈ maskSlices (field pl 4 1), (s.slice k).clkAlive = true) →
      paceOk (pacerAt pl 6) = true → Gives (.pacerSet (.head p) pl) s (fun t => ∃ u : State, t = u.told p [] ∧ u = { s with slices := u.slices } ∧
        ∀ k, u.slice k = if k ∈ maskSlices (field pl 4 1) then { s.slice k with pacer := { (s.slice k).pacer with next := some (pacerAt pl 6) } } else s.slice k)) ∧
    (s.vendorReady p (some 1) 24 pl = true → field pl 4 1 ≠ 0 → field pl 4 1 < 2 ^ s.nSlices → maskChans (field pl 6 2) ≠ [] →
      arbOk (weightsAt pl 8) (field pl 20 2) = true →
      (∀ k ∈ maskSlices (field pl 4 1), (s.slice k).clkAlive = true ∧ ∀ j ∈ maskChans (field pl 6 2), s.chanAbsent k.val j.val = false) →
      Gives (.arbWeightsSet (.head p) pl) s (fun t => ∃ u : State, u = { s with slices := u.slices } ∧
        t = u.told p (leBytes 2 ((maskSlices (field pl 4 1)).length * (maskChans (field pl 6 2)).length) ++ leBytes 2 0) ∧
        ∀ k j, u.chan k j = if k ∈ maskSlices (field pl 4 1) ∧ j ∈ maskChans (field pl 6 2)
          then { s.chan k j with arb := { (s.chan k j).arb with nextWeights := some (weightsAt pl 8, field pl 20 2) } } else s.chan k j)) ∧
    (s.vendorReady p (some 1) 80 pl = true → ∀ k : SliceId, field pl 4 1 = k.val → s.present k = true → (s.slice k).clkAlive = true →
      (field pl 8 1 = 1 ∨ (field pl 8 1 = 0 ∨ field pl 8 1 = 2) ∧ ∀ n, n < 16 → (BitVec.ofNat 16 (field pl 6 2)).getLsbD n = true →
        eventKnown (field pl (16 + 4 * n) 2 % 4096) = true ∧ ¬ (n = 0 ∧ field pl (16 + 4 * n) 2 % 4096 = 1) ∧ field pl (18 + 4 * n) 1 ≤ 15) →
      exec (.countersConfig (.head p) pl) s = .next ((s.updSlice k (fun x =>
        { x.applyCounters with ctrPending := some (BitVec.ofNat 16 (field pl 6 2), field pl 8 1, counterEntries pl) })).told p [])) ∧
    (s.vendorReady p (some 1) 8 pl = true → field pl 4 1 < 2 ^ s.nSlices → Gives (.countersUserAccess (.head p) pl) s (fun t =>
      ∃ u : State, t = u.told p (leBytes 1 (field pl 4 1) ++ leBytes 3 0) ∧ u = { s with heads := u.heads } ∧
        ∀ q, u.head q = if s.present q = true then { s.head q with userRead := decide (field pl 4 1 / 2 ^ q.val % 2 = 1) } else s.head q))) ∧
  (∀ (s : State) (k : SliceId),
    (∀ j w h, (s.chan k j).arb.nextWeights = some (w, h) → exec (.arbParamArrive k j) s =
      .next (s.updChan k j (fun c => { c with arb := { c.arb with nextWeights := none, armed := some w, holdLimit := h } }))) ∧
    (∀ mask action es, (s.slice k).ctrPending = some (mask, action, es) → Gives (.countersConfigApply k) s (fun t =>
      (t.slice k).ctrPending = none ∧ t = { s with slices := t.slices } ∧ (∀ q, q ≠ k → t.slice q = s.slice q) ∧
      ∀ i : Fin 16, ((mask.getLsbD i.val = false → (t.slice k).counters[i] = (s.slice k).counters[i]) ∧
        (mask.getLsbD i.val = true → (action = 0 ∨ action = 2) → (t.slice k).counters[i].event = (es.getD i.val (0, 0)).1 ∧ (t.slice k).counters[i].chan = (es.getD i.val (0, 0)).2) ∧
        (mask.getLsbD i.val = true → (action = 1 ∨ action = 2) → (t.slice k).counters[i].value = 0 ∧ (t.slice k).counters[i].ovf = false) ∧
        (mask.getLsbD i.val = true → action = 0 → (t.slice k).counters[i].value = (s.slice k).counters[i].value)))))

/-- R12, R408, R409, R414, R417, R421, R354, R420 (Tables 12-16, 12-17): the service commands that change one value change that value; a write to a rail
page changes the bytes it covers but for reserved ones, and no other; debug access opens only with DBG_EN high. -/
def Obligations.ServiceCommandsSet : Prop :=
  ∀ (s : State) (p : Port) (pl : List Byte),
    (∀ len, field pl 8 2 = len → s.vendorReady p (some 1) (12 + len) pl = true → field pl 6 2 ≤ 1023 → len ≠ 0 → len ≤ 1024 →
      (field pl 4 2 = 8 → Gives (.ledgerWrite (.head p) pl) s (fun t => t = { s with led := { s.led with rail8 := t.led.rail8 } }.told p [] ∧
        ∀ a, Mem.read t.led.rail8 a = if a < 1024 ∧ railReserved a = false ∧ (a + 1024 - field pl 6 2) % 1024 < len then pl.getD (12 + (a + 1024 - field pl 6 2) % 1024) 0
          else Mem.read s.led.rail8 a)) ∧
      (field pl 4 2 = 9 → Gives (.ledgerWrite (.head p) pl) s (fun t => t = { s with led := { s.led with rail9 := t.led.rail9 } }.told p [] ∧
        ∀ a, Mem.read t.led.rail9 a = if a < 1024 ∧ railReserved a = false ∧ (a + 1024 - field pl 6 2) % 1024 < len then pl.getD (12 + (a + 1024 - field pl 6 2) % 1024) 0
          else Mem.read s.led.rail9 a))) ∧
    (s.vendorReady p (some 1) 8 pl = true → ∀ k : SliceId, field pl 4 1 = k.val → s.present k = true → (s.slice k).clkAlive = true →
      s.sliceClash k.val = none →
      (field pl 5 1 = 0 → (s.slice k).quiesce = 0 →
        exec (.sliceQuiesce (.head p) pl) s = .next ((s.updSlice k (fun x => { x with quiesce := 1 })).told p [0, 1, 0, 0])) ∧
      (field pl 5 1 = 1 →
        exec (.sliceQuiesce (.head p) pl) s = .next ((s.updSlice k (fun x => { x with quiesce := 0 })).told p [0, 0, 0, 0]))) ∧
    (s.vendorReady p (some 1) 8 pl = true → field pl 4 1 ≤ 1 →
      exec (.packageReset (.head p) pl) s = .next ({ s with rst := { s.rst with pkgReset := some (field pl 4 1 == 0) } }.told p [])) ∧
    (s.vendorReady p none 8 pl = true → field pl 4 2 < 256 → Gives (.telemetryConfig (.head p) pl) s (fun t =>
      ∃ (u : State) (out : List Byte), u = s.updHead p (fun h => { h with tq := { h.tq with sections := BitVec.ofNat 16 (field pl 4 2), enable := decide (field pl 6 1 % 2 = 1) } }) ∧
        t = u.told p out ∧ field out 0 2 = field pl 4 2 ∧ field out 2 2 = (u.record p).length % 65536)) ∧
    (s.vendorReady p (some 4) 8 pl = true →
      (∀ e, field pl 4 1 = 0 →
        exec (.debugUnlock (.head p) pl e) s = .next ({ s with rst := { s.rst with dbgEn := e, debugOpen := false } }.told p [0, 0, 0, 0])) ∧
      (field pl 4 1 = 1 →
        exec (.debugUnlock (.head p) pl true) s = .next ({ s with rst := { s.rst with dbgEn := true, debugOpen := true } }.told p [1, 0, 0, 0])))

/-- R402, R405, R419: the three queries with CLEAR answer the values as they stood and then clear the sums named, nothing else. -/
def Obligations.ClearingQueriesClear : Prop :=
  ∀ (s : State) (p : Port) (pl : List Byte), s.vendorReady p (some 1) 8 pl = true →
    (∀ k : SliceId, field pl 4 1 = k.val → s.present k = true → (s.slice k).clkAlive = true → field pl 5 1 % 2 = 1 → field pl 6 1 ≤ 2 →
      Gives (.pacerGet (.head p) pl) s (fun t => ∃ u : State, t = u.told p (s.pacerOut k (field pl 6 1)) ∧
        u = s.updSlice k (fun x => { x with chans := u.slices[k].chans }) ∧ ∀ j, u.chan k j = (s.chan k j).clearPace)) ∧
    (∀ (k : SliceId) (j : ChanId), field pl 4 1 = k.val → field pl 5 1 = j.val → s.present k = true → (s.slice k).clkAlive = true →
      s.chanAbsent k.val j.val = false → field pl 6 1 % 2 = 1 →
      exec (.arbStats (.head p) pl) s = .next ((s.updChan k j (fun c => { c with arb := c.arb.clearStats })).told p (s.arbOut k j))) ∧
    (field pl 4 1 % 2 = 1 → Gives (.railLogGet (.head p) pl) s (fun t => ∃ (u : State) (out : List Byte), t = u.told p out ∧ u.railLog = s.railLog.cleared ∧
      u = { s with led := { s.led with rlog := u.led.rlog } } ∧ field out 0 1 = s.railLog.first.toNat ∧ field out 12 4 = s.railLog.failed.toNat))

/-- R384, R493: PROFILE_SELECT of a stored profile names it for one start, or kept, and with APPLY puts it in force; R12, R489, R492: PROFILE_WRITE stages
bytes, reserved ones as zero, and with FINAL stores them under the header of the number named. -/
def Obligations.ProfilesSelectAndStore : Prop :=
  ∀ (s : State) (p : Port) (pl : List Byte) (n : Fin 4), field pl 4 1 = n.val →
    (s.vendorReady p (some 1) 7 pl = true → ∀ im, s.led.prof[n].cur = some im →
      (field pl 5 1 = 0 → field pl 6 1 % 2 = 0 → Gives (.profileSelect (.head p) pl) s (fun t =>
        t.selRec = { s.selRec with once := some n } ∧ ∃ out, t = { s with led := { s.led with sel := t.led.sel } }.told p out ∧
          field out 0 1 = s.profNo.val ∧ field out 1 1 = 1 ∧ field out 2 1 = n.val)) ∧
      (field pl 5 1 = 1 → field pl 6 1 % 2 = 0 → s.storeRefused = false → Gives (.profileSelect (.head p) pl) s (fun t =>
        t.selRec = { s.selRec with sticky := some n } ∧ t.shadow.stores = s.shadow.stores + 1 ∧ t.shadow.led = t.led ∧ t.desc = s.desc)) ∧
      (field pl 5 1 = 0 → field pl 6 1 % 2 = 1 → s.profileManages im = true → Gives (.profileSelect (.head p) pl) s (fun t =>
        t.selRec = { s.selRec with once := some n } ∧ t.profNo = n ∧ t.prof = im ∧ t.profRom = false))) ∧
    (∀ len, field pl 12 2 = len → s.vendorReady p (some 1) (16 + len) pl = true →
      (field pl 5 1 % 2 = 0 → field pl 8 4 = 0 → len ≤ 16384 → Gives (.profileWrite (.head p) pl) s (fun t =>
        t.firm.staged = profileBytes 0 (bytesAt pl 16 len) ∧ t = { s with firm := { s.firm with staged := t.firm.staged } }.told p (leBytes 4 len))) ∧
      (field pl 5 1 % 2 = 0 → field pl 8 4 ≠ 0 → field pl 8 4 = s.firm.staged.length → field pl 8 4 + len ≤ 16384 → Gives (.profileWrite (.head p) pl) s (fun t =>
        t.firm.staged = s.firm.staged ++ profileBytes (field pl 8 4) (bytesAt pl 16 len) ∧
        t = { s with firm := { s.firm with staged := t.firm.staged } }.told p (leBytes 4 (s.firm.staged.length + len)))) ∧
      (∀ staged im, field pl 5 1 % 2 = 1 → ((field pl 8 4 = 0 ∧ staged = profileBytes 0 (bytesAt pl 16 len)) ∨
          (field pl 8 4 ≠ 0 ∧ field pl 8 4 = s.firm.staged.length ∧ staged = s.firm.staged ++ profileBytes (field pl 8 4) (bytesAt pl 16 len))) →
        staged.length = 16384 → im = profileHeader n.val (((s.led.prof[n].curSeq.map BitVec.toNat).getD 0 + 1) % 2 ^ 32) staged → s.profileOk im = true →
        s.profileManages im = true → s.storeRefused = false → Gives (.profileWrite (.head p) pl) s (fun t => t.led.prof[n].cur = some im ∧
          (∀ m, m ≠ n → t.led.prof[m] = s.led.prof[m]) ∧ t.shadow.stores = s.shadow.stores + 1 ∧ t.shadow.led = t.led ∧ t.desc = s.desc ∧ t.index = s.index)))

/-- R85, R86, R95, R386, R387: REGION_CREATE that passes its tests maps its granules to a new descriptor of GENERATION 1 and touches no other region;
REGION_MODIFY changes the fields selected, GENERATION rising by one. -/
def Obligations.RegionsCreatedAndModified : Prop :=
  ∀ (s : State) (p : Port) (pl : List Byte),
    (s.vendorReady p (some 1) 32 pl = true → (∀ x ∈ s.discards, ¬ (x.region = field pl 4 2 ∧ x.destroy = true)) → s.createTest pl = 0 →
      ∀ r base u, s.create pl = some (r, base, u) → Gives (.regionCreate (.head p) pl) s (fun t => ∃ d out, t = u.told p out ∧
        field out 0 2 = r % 65536 ∧ field out 4 4 = base % 2 ^ 32 ∧ SMap.get? u.desc r = some d ∧
        d.base = base ∧ d.count = field pl 20 4 ∧ d.gen = 1 ∧ d.keyId = field pl 8 2 ∧ d.rmask.toNat = field pl 10 1 ∧ d.wmask.toNat = field pl 11 1 ∧
        (∀ q, q ≠ r → SMap.get? u.desc q = SMap.get? s.desc q) ∧
        (∀ i, i < d.count → (SMap.get? u.index (base + i)).map (·.region) = some r) ∧
        (∀ g, g < base ∨ base + d.count ≤ g → SMap.get? u.index g = SMap.get? s.index g) ∧
        u = { s with desc := u.desc, index := u.index, slices := u.slices, free := u.free })) ∧
    (s.vendorReady p (some 1) 24 pl = true → ∀ r d, field pl 4 2 = r → r ≤ 16383 → SMap.get? s.desc r = some d → s.regionClash r = none →
      ∀ sel : BitVec 8, sel = BitVec.ofNat 8 (field pl 6 1) →
      (sel.getLsbD 3 = true → BitVec.ofNat 8 (field pl 9 1) &&& ~~~s.portMask = 0) →
      (sel.getLsbD 4 = true → BitVec.ofNat 8 (field pl 10 1) &&& ~~~s.portMask = 0) →
      (field pl 12 4 = 0 ∨ field pl 12 4 = d.gen.toNat) →
      (sel.getLsbD 2 = true → field pl 8 1 % 2 = 1 → d.pin = true ∨ s.pinned < 24) →
      Gives (.regionModify (.head p) pl) s (fun t => ∃ u : State, t = u.told p (leBytes 4 (d.gen.toNat + 1)) ∧
        u = { s with desc := u.desc, slices := u.slices, free := u.free } ∧ (∀ q, q ≠ r → SMap.get? u.desc q = SMap.get? s.desc q) ∧
        SMap.get? u.desc r = some { d with
          patient := if sel.getLsbD 0 then decide (field pl 7 1 / 4 % 2 = 1) else d.patient
          readFill := if sel.getLsbD 1 then decide (field pl 7 1 / 128 % 2 = 1) else d.readFill
          pin := if sel.getLsbD 2 then decide (field pl 8 1 % 2 = 1) else d.pin
          rmask := if sel.getLsbD 3 then BitVec.ofNat 8 (field pl 9 1) else d.rmask
          wmask := if sel.getLsbD 4 then BitVec.ofNat 8 (field pl 10 1) else d.wmask
          wear := if sel.getLsbD 5 then BitVec.ofNat 8 (field pl 11 1) else d.wear
          tag := if sel.getLsbD 6 then BitVec.ofNat 64 (field pl 16 8) else d.tag
          gen := d.gen + 1 }))

/-- R94, R391: APERTURE_SET gives the port named the READ and WRITE bits given for the regions named and clears them everywhere else; a descriptor
whose bits do not change keeps its GENERATION (log entry 41), every other one's rises by one. -/
def Obligations.ApertureSetAll : Prop :=
  ∀ (s : State) (p q : Port) (pl : List Byte), s.vendorReady p (some 1) (8 + 4 * field pl 6 2) pl = true → field pl 4 1 = q.val → s.present q = true →
    SMap.sorted s.desc = true → ((apertureEntries pl).map (·.1)).Nodup → (∀ e ∈ apertureEntries pl, e.1 ≤ 16383 ∧ (SMap.get? s.desc e.1).isSome = true) →
    Gives (.apertureSet (.head p) pl) s (fun t => ∃ (u : State) (out : List Byte), t = u.told p out ∧ u = { s with desc := u.desc, slices := u.slices, free := u.free } ∧
      ∀ r d, SMap.get? s.desc r = some d →
        ∃ rd wr : Bool, (rd = true ↔ ∃ e ∈ apertureEntries pl, e.1 = r ∧ e.2.1 = true) ∧ (wr = true ↔ ∃ e ∈ apertureEntries pl, e.1 = r ∧ e.2.2 = true) ∧
          SMap.get? u.desc r = some (if d.rmask.getLsbD q.val = rd ∧ d.wmask.getLsbD q.val = wr then d
            else { d with rmask := setBit d.rmask q.val rd, wmask := setBit d.wmask q.val wr, gen := d.gen + 1 }))

/-- R92, R388, R389, R248, R249: REGION_DESTROY and a discard of a whole region make it Discarding and start; a discard of a range starts without a
change of state. Once every group is handled the region returns to its state, or, destroyed, is gone with its granules unmapped. -/
def Obligations.DiscardsRun : Prop :=
  ∀ (s : State) (p : Port) (pl : List Byte) (r : Nat) (d : Desc), SMap.get? s.desc r = some d →
    (field pl 4 2 = r → r ≤ 16383 → (s.head p).bg = none → s.regionClash r = none →
      (s.vendorReady p (some 1) 12 pl = true → (field pl 8 4 = 0 ∨ field pl 8 4 = d.gen.toNat) → Gives (.regionDestroy (.head p) pl) s (fun t =>
        ∃ u : State, t = u.started p 0xC012 (.destroy r) ∧ SMap.get? u.desc r = some { d with st := .discarding, back := d.st, gen := d.gen + 1 } ∧
          u = { s with desc := u.desc, slices := u.slices, free := u.free, discards := s.discards ++ [⟨r, true, true, 0, d.count * 2 ^ 28, [], none⟩] })) ∧
      (s.vendorReady p (some 1) 24 pl = true → field pl 6 1 % 2 = 1 → (d.st = .active ∨ d.st = .locked) → Gives (.regionDiscard (.head p) pl) s (fun t =>
        ∃ u : State, t = u.started p 0xC013 (.discard r) ∧ SMap.get? u.desc r = some { d with st := .discarding, back := d.st, gen := d.gen + 1 } ∧
          u = { s with desc := u.desc, slices := u.slices, free := u.free, discards := s.discards ++ [⟨r, false, true, 0, d.count * 2 ^ 28, [], none⟩] })) ∧
      (s.vendorReady p (some 1) 24 pl = true → field pl 6 1 % 2 = 0 → d.st = .active → field pl 8 8 % 64 = 0 → field pl 16 8 % 64 = 0 →
        field pl 16 8 ≠ 0 → field pl 8 8 + field pl 16 8 ≤ d.count * 2 ^ 28 → exec (.regionDiscard (.head p) pl) s =
          .next (({ s with discards := s.discards ++ [⟨r, false, false, field pl 8 8, field pl 8 8 + field pl 16 8, [], none⟩] } : State).started p 0xC013 (.discard r)))) ∧
    (s.rst.mgmtDown = false → s.power.flush = .idle →
      (∀ x, s.discards.find? (fun x => x.region = r && x.destroy) = some x → (∀ k ∈ s.liveSlices, (s.slice k).st = .working ∧ s.zeroBlocked k r = []) →
        Gives (.regionDestroyComplete r) s (fun t => SMap.get? t.desc r = none ∧ (∀ q, q ≠ r → SMap.get? t.desc q = SMap.get? s.desc q) ∧
          t.index = s.index.filter (fun e => e.2.region != r) ∧ t.discards = s.discards.filter (fun x => x.region != r) ∧
          ∀ q, s.bgOf (fun b => b == .destroy r) = some q → s.bgEnded t q .success)) ∧
      (∀ x, s.discards.find? (fun x => x.region = r && !x.destroy) = some x → x.reinit = none → (∀ g ∈ x.groups d, x.handled.contains g = true) →
        Gives (.discardComplete r) s (fun t => t.discards = s.discards.filter (fun y => y.region != r) ∧ t.index = s.index ∧
          SMap.get? t.desc r = some (if x.whole then { d with st := d.back, gen := d.gen + 1 } else d) ∧
          ∀ q, s.bgOf (fun b => b == .discard r) = some q → s.bgEnded t q .success)) ∧
      (∀ x group u, s.discards.find? (fun x => x.region = r && !x.destroy) = some x → s.regionAt (group * 4096) = some (r, d, u) → x.reinit = none →
        (x.groups d).contains group = true → x.handled.contains group = false → (s.slice (fin8 (s.prism d u (group * 4096)).slice)).st = .working →
        (s.groupHome d u (group * 4096) = .nowhere →
          (¬ (∀ i, i < 64 → d.base * 2 ^ 28 + x.lo ≤ group * 4096 + i * 64 ∧ group * 4096 + i * 64 < d.base * 2 ^ 28 + x.hi) →
            exec (.discardPage r group) s = .next (s.handled r [group])) ∧
          ((∀ i, i < 64 → d.base * 2 ^ 28 + x.lo ≤ group * 4096 + i * 64 ∧ group * 4096 + i * 64 < d.base * 2 ^ 28 + x.hi) →
            Gives (.discardPage r group) s (fun t => t.desc = s.desc ∧ t.index = s.index ∧ (∀ y ∈ t.discards, y.region = r → group ∈ y.handled) ∧
              ∀ l, l / 64 = group → (t.slice (fin8 (s.prism d u (group * 4096)).slice)).front.look l = .miss))) ∧
        (∀ pg, s.groupHome d u (group * 4096) = .at pg →
          (∀ i, i < 64 → d.base * 2 ^ 28 + x.lo ≤ group * 4096 + i * 64 ∧ group * 4096 + i * 64 < d.base * 2 ^ 28 + x.hi) →
          ((s.slice (fin8 (s.prism d u (group * 4096)).slice)).media.entry pg.key).st ≠ .dead → (s.wholeBlock x d (fin8 (s.prism d u (group * 4096)).slice) pg.key) = none →
          (s.slice (fin8 (s.prism d u (group * 4096)).slice)).media.ovRoom pg.pageKey = true →
          Gives (.discardPage r group) s (fun t => t.desc = s.desc ∧ t.index = s.index ∧
            (SMap.get? (t.slice (fin8 (s.prism d u (group * 4096)).slice)).media.overlay pg.pageKey).map (fun o => (o.kind, o.sectors)) = some (.zero, 0) ∧
            ∀ y ∈ t.discards, y.region = r → group ∈ y.handled))))

/-- R392, R482: a fence that passes its checks waits behind the writes accepted before it; then its lines commit together and it answers GROUP_SEQ. -/
def Obligations.WriteGroupFences : Prop :=
  ∀ (s : State) (p : Port),
    (∀ pl, s.vendorReady p (some 0) (8 + 72 * field pl 4 2) pl = true → field pl 4 2 ≤ 64 → (field pl 4 2 = 0 ∨ s.groupRec = none) →
      (∀ a ∈ groupLines pl, a.1 % 64 = 0) → ((groupLines pl).map (·.1)).Nodup →
      (∀ a ∈ groupLines pl, s.inAperture p true a.1 = true ∧ ∃ r d u, s.regionAt a.1 = some (r, d, u) ∧ (d.st = .active ∨ d.st = .rekeying)) →
      (∀ a ∈ groupLines pl, ∀ o, s.ownerOf (a.1 / 64) = some o → (s.slice (fin8 o)).clkAlive = true) →
      exec (.writeGroupFence (.head p) pl) s = .next { s with firm := { s.firm with fences := s.firm.fences ++ [(⟨0, p, 0, 0, groupLines pl⟩, s.nextId)] } }) ∧
    (s.rst.mgmtDown = false → s.power.flush = .idle → (s.head p).dbInt = false → (s.head p).muted = false → s.rst.rung = [] → ∀ g n rest, s.firm.fences = (g, n) :: rest → (∀ f ∈ rest, f ≠ (g, n)) →
      g.port = p → g.tag = 0 → s.writesBefore p n = false → s.groupRec = none → (s.commitGroup p g.lines).1 = [] →
      (g.lines = [] → exec .writeGroupCommit s = .next ({ s with firm := { s.firm with fences := rest } }.told p (leBytes 8 0 ++ leBytes 8 0))) ∧
      (g.lines ≠ [] → Gives .writeGroupCommit s (fun t => t.firm.fences = rest ∧ t.firm.groupSeq = s.firm.groupSeq + 1 ∧ t.groupRec = none ∧
        t.desc = s.desc ∧ t.index = s.index ∧ t.keys = s.keys ∧ (∀ k, (t.slice k).front = ((s.commitGroup p g.lines).2.slice k).front) ∧
        t.out.head? = some (.mailbox (.head p) .success (vHead 0 0 0 ++ (leBytes 2 g.lines.length ++ leBytes 6 0 ++ leBytes 8 (s.firm.groupSeq + 1).toNat))))))

/-- R336, R337, R339, R395, R341, R342, R343, R396: KEY_LOAD of a host's key fills an Empty slot; KEY_RETIRE records its step and starts; drained, the
slot is Quarantined without key and its regions Unavailable with cause 3; after 2^20 beats the slot is Empty. -/
def Obligations.KeySlotsLive : Prop :=
  ∀ (s : State) (p : Port) (slot : Nat), 1 ≤ slot → slot ≤ 2047 →
    (∀ pl, field pl 4 2 = slot → s.vendorReady p (some 2) 72 pl = true → s.slotClash slot = none → field pl 6 1 = 0 → s.slotSt slot = 0 → s.storeRefused = false →
      Gives (.keyLoad (.head p) pl) s (fun t =>
        SMap.get? t.keys slot = some ⟨1, false, BitVec.ofNat 512 (leVal (bytesAt pl 8 64)), macKeyOf (BitVec.ofNat 512 (leVal (bytesAt pl 8 64))),
          kcvOf (BitVec.ofNat 512 (leVal (bytesAt pl 8 64))), 0⟩ ∧ (∀ n, n ≠ slot → SMap.get? t.keys n = SMap.get? s.keys n) ∧
        t.shadow.stores = s.shadow.stores + 1 ∧ t.desc = s.desc ∧ t.index = s.index ∧
        (SMap.get? t.keyRecs slot).map (·.wrapped) = some [])) ∧
    (∀ pl, field pl 4 2 = slot → s.vendorReady p (some 2) 8 pl = true → s.slotClash slot = none → s.ops.retires.length < 8 → (s.head p).bg = none →
      (s.slotSt slot = 1 ∨ s.slotSt slot = 2) → (∀ e ∈ s.desc, e.2.st = .rekeying → e.2.names slot = false) →
      (field pl 6 1 % 2 = 1 ∨ ∀ e ∈ s.desc, e.2.names slot = false) → Gives (.keyRetire (.head p) pl) s (fun t =>
        t.ops.retires = s.ops.retires ++ [⟨slot, decide (field pl 6 1 % 2 = 1), 1⟩] ∧ t.shadow.led = t.led ∧ t.keys = s.keys ∧ t.desc = s.desc ∧
        (t.head p).bg = some ⟨.retire slot 0, 0xC021, 0, 0, false, 0⟩)) ∧
    ((∃ x ∈ s.ops.retires, x.slot = slot) → s.rst.mgmtDown = false → s.power.flush = .idle → ¬ 12 ∈ s.rst.todo → SMap.sorted s.desc = true →
      (∀ k ∈ s.liveSlices, (s.slice k).st = .working ∧ s.undrained k (s.regionsOf slot) = false) → Gives (.keyRetireDrained slot) s (fun t =>
        SMap.get? t.keys slot = some ⟨3, false, 0, 0, 0, s.beat.events⟩ ∧ (∀ n, n ≠ slot → SMap.get? t.keys n = SMap.get? s.keys n) ∧
        t.ops.retires = s.ops.retires.filter (fun r => r.slot != slot) ∧
        (∀ r d, SMap.get? s.desc r = some d → SMap.get? t.desc r =
          some (if d.mode ≠ .clear ∧ d.keyId = slot then { d.keyLost with gen := d.gen + 1 } else d)) ∧
        ∀ q, s.bgOf (fun b => match b with | .retire n _ => n = slot | _ => false) = some q → s.bgEnded t q .success)) ∧
    (∀ x, SMap.get? s.keys slot = some x → x.st = 3 → x.since + 2 ^ 20 ≤ s.beat.events → ¬ 12 ∈ s.rst.todo → Gives (.keyQuarantineEnd slot) s (fun t =>
      t = { s with keys := SMap.del s.keys slot, led := { s.led with keys := t.led.keys } } ∧ SMap.get? t.keyRecs slot = none ∧
      ∀ n, n ≠ slot → SMap.get? t.keyRecs n = SMap.get? s.keyRecs n))

/-- R344, R345, R347, R398: REGION_REKEY of an Active region to a Loaded slot records the rekey and starts at chunk 0; a chunk done moves REKEY_PTR;
the last one makes the new key the region's key. -/
def Obligations.RegionRekeys : Prop :=
  ∀ (s : State) (p : Port) (r : Nat) (d : Desc), SMap.get? s.desc r = some d →
    (∀ pl slot, field pl 4 2 = r → r ≤ 16383 → field pl 6 2 = slot → 1 ≤ slot → slot ≤ 2047 → s.vendorReady p (some 2) 32 pl = true → s.regionClash r = none →
      (s.head p).bg = none → d.mode ≠ .clear → s.slotSt slot = 1 → d.st = .active → slot ≠ d.keyId → field pl 8 1 % 2 = 0 → s.ops.rekeys.length < 48 →
      Gives (.regionRekey (.head p) pl) s (fun t => t.ops.rekeys = s.ops.rekeys ++ [⟨r, d.keyId, slot, 0⟩] ∧ t.index = s.index ∧ t.keys = s.keys ∧
        SMap.get? t.desc r = some { d with st := .rekeying, newKey := slot, rekeyPtr := 0, gen := d.gen + 1 } ∧
        (t.head p).bg = some ⟨.rekey r 0, 0xC023, 0, 0, false, 0⟩)) ∧
    (SMap.get? s.chunks r = some [] → d.st = .rekeying → s.rst.mgmtDown = false → s.power.flush = .idle → s.keysLoaded d = true →
      (d.rekeyPtr + 1 < d.count * 64 → Gives (.rekeyChunkComplete r) s (fun t => SMap.get? t.desc r = some { d with rekeyPtr := d.rekeyPtr + 1 } ∧
        t.ops.rekeys = s.ops.rekeys.map (fun x => if x.region = r then { x with ptr := d.rekeyPtr + 1 } else x) ∧ t.keys = s.keys ∧ t.index = s.index)) ∧
      (d.count * 64 ≤ d.rekeyPtr + 1 → Gives (.rekeyChunkComplete r) s (fun t =>
        SMap.get? t.desc r = some { d with st := .active, keyId := d.newKey, newKey := 0, rekeyPtr := 0, gen := d.gen + 1 } ∧
        t.ops.rekeys = s.ops.rekeys.filter (fun x => x.region != r) ∧ SMap.get? t.chunks r = none ∧ t.keys = s.keys ∧ t.index = s.index)))

/-- R352, R410, R484, R486, R487, R152, R153, R155, R413, R483: a ledger store copies the records and counts itself; SRAM_RETIRE marks its frame and, once
it holds nothing dirty, the frame is recorded retired. -/
def Obligations.StoresAndFrameRetirement : Prop :=
  ∀ (s : State) (p : Port) (k : SliceId),
    (∀ pl, s.vendorReady p (some 1) 4 pl = true → s.storeRefused = false → Gives (.ledgerStore (.head p) pl) s (fun t =>
      t.shadow.stores = s.shadow.stores + 1 ∧ t.shadow.led = t.led ∧ t.shadow.old = some s.shadow.led ∧ t.firm.store = some (.head p, 0, 0) ∧
      t.led = { s.led with prot := t.led.prot } ∧ (s.rst.coldSteps.contains 10 = false → ∀ q : Fin 8, (s.slice q).st ≠ .lost → (t.protRecs[q]).unver = (s.slice q).tree.unver) ∧
      t.desc = s.desc)) ∧
    (∀ us, us ≤ 180 → s.shadow.stores ≤ 200000 → s.firm.store = some (.head p, 0, 0) → s.rst.pendingSrc = [] → s.rst.rung = [] → (s.head p).dbInt = false →
      (s.head p).muted = false → Gives (.ledgerStoreEnd us) s (fun t => t = { s with firm := { s.firm with store := none }, shadow := { s.shadow with sumA := t.shadow.sumA, sumB := t.shadow.sumB, old := none } }.told p
        (leBytes 4 s.shadow.stores ++ leBytes 4 us))) ∧
    (∀ pl frame, s.vendorReady p (some 1) 12 pl = true → field pl 4 1 = k.val → s.present k = true → (s.slice k).clkAlive = true → s.sliceClash k.val = none →
      (s.head p).bg = none → field pl 5 1 = 0 → field pl 8 4 = frame → s.retireTest k none frame = 0 → Gives (.sramRetire (.head p) pl) s (fun t =>
        ((t.slice k).front.entry frame).retired = true ∧ (∀ n, n ≠ frame → (t.slice k).front.entry n = (s.slice k).front.entry n) ∧
        (t.head p).bg = some ⟨.sramRetire k none frame 1, 0xC082, 0, 0, false, 0⟩ ∧ ∀ j, j ≠ k → t.slice j = s.slice j)) ∧
    (∀ frame n b, (s.head p).bg = some b → b.kind = .sramRetire k none frame n → s.bgOf (fun b => match b with | .sramRetire q _ _ _ => q == k | _ => false) = some p →
      s.rst.mgmtDown = false → s.power.flush = .idle →
      (((s.slice k).front.entry frame).present = true → ((s.slice k).front.entry frame).dirty = 0 ∧ ((s.slice k).front.entry frame).draining = false ∧
        ((s.slice k).front.entry frame).filling = false) →
      Gives (.sramRetireComplete k) s (fun t => t.retireList = { s.retireList with frames := s.retireList.frames ++ [(k.val, frame, s.beat.now)] } ∧
        ((t.slice k).front.entry frame).present = false ∧ t.shadow.stores = s.shadow.stores + 1 ∧ s.bgEnded t p .success))

/-- R414, R415, R416, R417, R464, Tables 14-1 and 14-2: a quiesced slice can be reset, an idle port of another head reset, and a package reset takes
its reach; quiescence is reached and given up by itself. -/
def Obligations.ServiceResets : Prop :=
  ∀ (s : State) (p : Port) (k : SliceId), s.starting = false →
    (∀ pl, s.vendorReady p (some 1) 8 pl = true → field pl 4 1 = k.val → s.present k = true → k ≠ p → (s.slice k).clkAlive = true → (s.slice k).quiesce = 2 →
      s.sliceClash k.val = none → (s.head p).bg = none → Gives (.sliceReset (.head p) pl) s (fun t =>
        (t.slice k).st = .resetting ∧ (t.slice k).ok = false ∧ (t.slice k).quiesce = 0 ∧ (t.slice k).todo = joinSteps sliceSteps (s.slice k).todo ∧
        (t.head p).bg = some ⟨.sliceReset k, 0xC091, 0, 0, false, 0⟩ ∧ (t.head k).enabled = false ∧
        ∀ q, s.present q = true → (t.head q).cause.bits.getLsbD 3 = true ∧ (t.head q).cause.sliceMask.getLsbD k.val = true ∧ (t.head q).cause.lastReach = 3)) ∧
    (∀ pl, s.vendorReady p (some 1) 8 pl = true → field pl 4 1 = k.val → s.present k = true → k ≠ p → s.portIdle k = true →
      Gives (.portReset (.head p) pl) s (fun t => (t.head k).cause.lastReach = 4 ∧ (t.head k).link = none ∧ t.desc = s.desc ∧ t.keys = s.keys ∧
        ∀ q, s.present q = true → (t.head q).cause.bits.getLsbD 3 = true)) ∧
    (s.power.flush = .idle → s.firm.store = none →
      (s.rst.pkgReset = some true → Gives .packageResetAssert s (fun t => t.rst.pkgReset = none ∧ t.rst.ready = false ∧ t.rst.todo = joinSteps warmSteps s.rst.todo ∧
        t.led.media = s.led.media ∧ t.keys = s.keys ∧ t.shadow = { s.shadow with pageA := t.shadow.pageA, pageB := t.shadow.pageB, led := t.shadow.led } ∧
        ∀ q, s.present q = true → (t.head q).cause.bits.getLsbD 3 = true ∧ (t.head q).cause.lastReach = 2 ∧ (t.head q).enabled = false)) ∧
      (s.rst.pkgReset = some false → Gives .packageResetAssert s (fun t => t.rst.pkgReset = none ∧ t.rst.mgmtDown = true ∧ t.slices = s.slices ∧ t.desc = s.desc ∧
        t.index = s.index ∧ ∀ q, s.present q = true → (t.head q).cause.bits.getLsbD 3 = true ∧ (t.head q).cause.lastReach = 5 ∧ (t.head q).mboxReady = false))) ∧
    ((s.slice k).quiesce = 1 → (∀ j, (s.chan k j).pace.opOpen = []) → (∀ j, (s.chan k j).tenures = []) →
      exec (.sliceQuiesced k) s = .next (s.updSlice k (fun x => { x with quiesce := 2, quiescedAt := s.beat.events }))) ∧
    ((s.slice k).quiesce = 2 → (s.slice k).quiescedAt + 2 ^ 20 ≤ s.beat.events → exec (.quiesceTimeout k) s = .next (s.updSlice k (fun x => { x with quiesce := 0 })))

/-- R361, R362, R363, R365, R370, R371, R378: an image is transferred in parts, verified and kept or dropped, named for the next reset or started at once, unless a
transfer is writing its area (Busy); a started image that verifies becomes primary when it reaches its ready point in time and the previous one comes back otherwise. R358, R359, R464: watchdog expiry and a
lock-up assert the management reach at once, with their own cause bits; slices, regions and keys are untouched. -/
def Obligations.FirmwareAndItsRestarts : Prop :=
  (∀ (s : State) (p : Port) (slot : Nat) (a : Fin 2), slotArea slot = some a →
    (s.mailReady p = true → (s.roles p).getLsbD 3 = true →
      (∀ b act off data, (s.head p).bg = some b → b.kind = .fwTransfer → data.length ≤ 65536 →
        exec (.transferFw (.head p) slot act off data) s = .next (s.said p .busy .none)) ∧
      (∀ data, (∀ b, (s.head p).bg = some b → b.kind ≠ .fwTransfer) → a ≠ s.firm.running → s.firm.xfer = none → data.length % 128 = 0 → data.length ≤ 65536 → exec (.transferFw (.head p) slot .initiate 0 data) s =
        .next ({ s with firm := { s.firm with xfer := some (p, slot, data) } }.said p .success .none)) ∧
      (∀ data sofar off, (∀ b, (s.head p).bg = some b → b.kind ≠ .fwTransfer) → a ≠ s.firm.running → s.firm.xfer = some (p, slot, sofar) → off * 128 = sofar.length → data.length % 128 = 0 → data.length ≤ 65536 →
        sofar.length + data.length ≤ 4 * 2 ^ 20 →
        (exec (.transferFw (.head p) slot .continue off data) s =
          .next ({ s with firm := { s.firm with xfer := some (p, slot, sofar ++ data) } }.said p .success .none)) ∧
        ((s.head p).bg = none → Gives (.transferFw (.head p) slot .finish off data) s (fun t => t.firm.xfer = some (p, slot, sofar ++ data) ∧
          (t.head p).bg = some ⟨.fwTransfer, 0x0201, 0, 0, false, 0⟩))) ∧
      (∀ sofar, (∀ b, (s.head p).bg = some b → b.kind ≠ .fwTransfer) → s.firm.xfer = some (p, slot, sofar) →
        exec (.transferFw (.head p) slot .abort 0 []) s = .next ({ s with firm := { s.firm with xfer := none } }.said p .success .none)) ∧
      (s.slotWriting slot = true → ∀ online, exec (.activateFw (.head p) slot online) s = .next (s.said p .busy .none)) ∧
      (∀ im, s.slotWriting slot = false → s.firm.area a = some im → s.storeRefused = false →
        Gives (.activateFw (.head p) slot false) s (fun t => t.fwRec.primary = a ∧ t.fwRec.next = some a ∧ t.fwRec.svn = max s.fwRec.svn (imageSvn im) ∧
          t.shadow.stores = s.shadow.stores + 1 ∧ t.firm.act = none ∧ t.firm.running = s.firm.running ∧ (∀ c, t.firm.area c = s.firm.area c) ∧ t.desc = s.desc) ∧
        ((s.head p).bg = none → Gives (.activateFw (.head p) slot true) s (fun t => t.firm.act = some (p, slot) ∧ t.firm.trial = s.imageOk im ∧ t.rst.mgmtDown = true ∧
          (t.head p).bg = some ⟨.fwActivate slot, 0x0202, 0, 0, false, 0⟩ ∧ t.fwRec = s.fwRec ∧ t.slices = s.slices ∧ ∀ q, (t.head q).mboxReady = false)))) ∧
    (∀ im b ok, s.firm.xfer = some (p, slot, im) → (s.head p).bg = some b → b.kind = .fwTransfer → s.rst.mgmtDown = false → Gives (.fwTransferEnd p ok) s (fun t =>
      t.firm.xfer = none ∧ t.firm.area a = (if s.imageOk im && ok then some im else none) ∧ (∀ c, c ≠ a → t.firm.area c = s.firm.area c) ∧
      s.bgEnded t p (if s.imageOk im && ok then .success else .fwVerificationFailed) ∧ t.slices = s.slices ∧ t.led = s.led)) ∧
    (s.firm.act = some (p, slot) → s.firm.trial = true → s.mgmtCanRun = true → s.rst.rung = [] → s.groupRec = none →
      (∀ ms, ms ≤ 500 → Gives (.fwReadyPoint ms) s (fun t => t.firm.running = a ∧ t.firm.act = none ∧ t.firm.trial = false ∧ t.rst.mgmtDown = false ∧
        (∀ im, s.firm.area a = some im → t.fwRec.primary = a) ∧ ∀ q, (t.head q).enabled = true → (t.head q).mboxReady = true)) ∧
      (∀ ms, 500 ≤ ms → exec (.fwActivationTimeout ms) s = .next { s with firm := { s.firm with trial := false } })) ∧
    (s.firm.act = some (p, slot) → s.firm.trial = false → s.mgmtCanRun = true → s.rst.rung = [] → s.groupRec = none →
      Gives .managementRestartComplete s (fun t => t.firm.running = s.firm.running ∧ t.firm.act = none ∧ t.rst.mgmtDown = false ∧
        (t.head p).bg = none ∧ (∀ b, (s.head p).bg = some b → (s.head p).mutedBg = false → (t.head p).bgLast = some ⟨b.op, .fwRolledBack, 0⟩) ∧
        ∀ q, (t.head q).enabled = true → (t.head q).mboxReady = true))) ∧
  (∀ (s : State), s.mgmtRuns = true → s.rst.pendingSrc = [] → s.starting = false →
    (∀ ms, 250 ≤ ms → Gives (.watchdog ms) s (fun t => t.rst.mgmtDown = true ∧ t.slices = s.slices ∧ t.desc = s.desc ∧ t.index = s.index ∧ t.keys = s.keys ∧
      ∀ q, s.present q = true → (t.head q).cause.bits.getLsbD 5 = true ∧ (t.head q).cause.lastReach = 5 ∧ (t.head q).mboxReady = false ∧ (t.head q).logs = (s.head q).logs)) ∧
    Gives .lockup s (fun t => t.rst.mgmtDown = true ∧ t.slices = s.slices ∧ t.desc = s.desc ∧ t.index = s.index ∧ t.keys = s.keys ∧
      ∀ q, s.present q = true → (t.head q).cause.bits.getLsbD 7 = true ∧ (t.head q).cause.lastReach = 5 ∧ (t.head q).mboxReady = false ∧ (t.head q).logs = (s.head q).logs))

/-- R52, R366, R376, Table 11-6: a line is injected with poison and cleared by a full write; a scan of the media starts, or ends at once where nothing of the
range is on the medium; a scan or a sweep ends with Aborted at the boundary after an abort. What an injected line's data is stays open (log entry 3). The
clauses on lines hold where the line's slice runs, no node above the line is unverifiable and the line has room in the front store. -/
def Obligations.PoisonCommandsRun : Prop :=
  (∀ (s : State) (p : Port) (b : Bg), (s.head p).bg = some b → b.abort = true → (s.head p).mutedBg = false →
    (∀ lo hi next, b.kind = .scan lo hi next → Gives (.backgroundAbortBoundary p) s (fun t => (t.head p).bg = none ∧ (t.head p).bgLast = some ⟨b.op, .aborted, 0⟩ ∧
      .reply (.head p) .aborted .none ∈ t.out ∧ (∀ k ∈ s.sliceIds, ∀ x ∈ (t.slice k).reads, x.why ≠ .scan p) ∧
      (t.head p).scanResults = (s.head p).scanResults ∧ t.desc = s.desc ∧ t.index = s.index ∧ t.keys = s.keys)) ∧
    (∀ j m, b.kind = .lensSweep j m → Gives (.backgroundAbortBoundary p) s (fun t => (t.head p).bg = none ∧ (t.head p).bgLast = some ⟨b.op, .aborted, 0⟩ ∧
      .mailbox (.head p) .aborted (vHead 0 b.tag.toNat 0) ∈ t.out ∧ t.slices = s.slices ∧ t.desc = s.desc ∧ t.index = s.index ∧ t.keys = s.keys))) ∧
  ∀ (s : State) (p : Port), s.mailReady p = true → s.hasManage p = true →
    (∀ dpa r d u k, dpa % 64 = 0 → s.inAperture p true dpa = true → s.regionAt dpa = some (r, d, u) → s.owner (dpa / 64) = some k → s.ingressCheck d p true = 0 →
      (s.slice k).clkAlive = true → s.working k = true → s.roomFor k (dpa / 64) = true →
      s.unverNode k (dpa / 64) = none →
      (s.injected.length < 64 → Gives (.injectPoison (.head p) dpa) s (fun t => (dpa / 64, PoisonSrc.injected) ∈ t.health.known ∧
        (∃ f how, (s.slice k).front.commit s.beat.salt s.beat.now (dpa / 64) (BitVec.allOnes 64) (Config.freeValue s.free 512) true true = some (f, how) ∧
          (t.slice k).front = f) ∧
        t.desc = s.desc ∧ t.index = s.index ∧ t.keys = s.keys ∧ t.out.head? = some (.reply (.head p) .success .none))) ∧
      (∀ data, Gives (.clearPoison (.head p) dpa data) s (fun t => (∀ x, (dpa / 64, x) ∉ t.health.known) ∧ dpa / 64 ∉ (t.slice k).front.poison ∧
        (dpa / 64 ∉ (s.slice k).front.poison → ∃ f how, (s.slice k).front.commit s.beat.salt s.beat.now (dpa / 64) (BitVec.allOnes 64) data false true = some (f, how) ∧
          (t.slice k).front = f) ∧
        t.desc = s.desc ∧ t.index = s.index ∧ t.keys = s.keys ∧ t.out.head? = some (.reply (.head p) .success .none)))) ∧
    (∀ base len, (s.head p).bg = none → base % 64 = 0 → len % 64 = 0 → len ≠ 0 → base + len ≤ s.capacity → s.rangeStopped base len = false →
      s.nextMapped (base / 64) ((base + len) / 64) = none → Gives (.scanMedia (.head p) base len) s (fun t => (t.head p).scanResults = [] ∧ (t.head p).bg = none ∧ (t.head p).bgLast = some ⟨0x4304, .success, 0⟩ ∧
        t.slices = s.slices)) ∧
    (∀ base len k line, (s.head p).bg = none → base % 64 = 0 → len % 64 = 0 → len ≠ 0 → base + len ≤ s.capacity → s.rangeStopped base len = false →
      s.nextMapped (base / 64) ((base + len) / 64) = some (k, line) → Gives (.scanMedia (.head p) base len) s (fun t => (t.head p).scanResults = [] ∧
        .reply (.head p) .backgroundStarted .none ∈ t.out ∧
        ∃ n, (t.head p).bg = some ⟨.scan (base / 64) ((base + len) / 64) (line + 1), 0x4304, 0, 0, false, n⟩))

/-- R109, R110, R122, R123, R129, Table 04-6: a line committed whole and without poison is found afterwards, held Dirty with exactly the data written,
and no other line changes unless a frame was evicted for it. -/
def Obligations.CommittedLineReadsBack : Prop :=
  ∀ (f g : Front) (salt : BitVec 35) (now : BitVec 64) (line : Nat) (d : Line) (how : CommitTo), SMap.sorted f.dir = true → SMap.sorted f.spill = true →
    f.spill.length < 2048 → f.commit salt now line (BitVec.allOnes 64) d false true = some (g, how) →
    (∃ n, g.look line = .full ⟨d, 0xFF, 0⟩ n true) ∧ ((∀ ev, how ≠ .newFrame ev) → ∀ l, l ≠ line → g.look l = f.look l)

/-- R8, R28, R88, R129: a write of a whole line to a line of the head's own slice is committed there and completes within 29 ns. -/
def Obligations.LocalWriteCommits : Prop :=
  ∀ (s : State) (p : Port) (hpa dpa region unit : Nat) (d : Desc) (data : Line) (psn : Bool) (errs : List Nat), s.reaches p hpa true region d unit dpa → s.ownsLine p d unit dpa →
    substitute s.mediaRec.absent 17 (s.prism d unit dpa) ≠ .nowhere →
    ∀ g how, (s.slice p).front.commit s.beat.salt s.beat.now (dpa / 64) (BitVec.allOnes 64) data psn true = some (g, how) →
      Gives (.cxlMemWrite p hpa (BitVec.allOnes 64) data psn ⟨errs, .none⟩) s (fun t => (t.slice p).front = g ∧ t.nextId = s.nextId + 1 ∧
        (∃ dl v, t.out.head? = some (.cxl p s.nextId true 0 false dl v (29000 + s.flitExtra p))) ∧ t.desc = s.desc ∧ t.index = s.index ∧ t.keys = s.keys ∧
        ∀ k, k ≠ p → (t.slice k).front = (s.slice k).front)

/-- R8, R10, R33, R47, R109, R110, R122, R217: a read of a line that the head's own slice holds returns it, or poison, within 27 ns; one that it
neither holds nor has on the medium reads zero; one on the medium raises a media read and completes later, but for a Sealed line whose tree node is
lost, which reads poisoned. -/
def Obligations.LocalReads : Prop :=
  ∀ (s : State) (p : Port) (hpa dpa region unit ps : Nat) (d : Desc), s.reaches p hpa false region d unit dpa → s.ownsLine p d unit dpa →
    substitute s.mediaRec.absent 17 (s.prism d unit dpa) ≠ .nowhere →
    (∀ x n dirty, (s.slice p).front.look (dpa / 64) = .full x n dirty → x.vld = 0xFF → Gives (.cxlMemRead p hpa ⟨[], ps⟩ .none) s (fun t =>
      (∃ dl v, t.out.head? = some (.cxl p s.nextId false (if x.poisoned then 0 else x.read) x.poisoned dl v (27000 + s.flitExtra p))) ∧
      (t.slice p).front.look (dpa / 64) = .full x n dirty ∧ t.desc = s.desc ∧ t.index = s.index)) ∧
    (∀ h, (s.slice p).front.look (dpa / 64) = .miss → s.lineSource p (dpa / 64) = some (h, .zero) → Gives (.cxlMemRead p hpa ⟨[], ps⟩ .none) s (fun t =>
      (∃ dl v, t.out.head? = some (.cxl p s.nextId false 0 false dl v ((if d.patient then 4000000 else 480000) + s.flitExtra p))) ∧
      (t.slice p).front = (s.slice p).front ∧ t.desc = s.desc ∧ t.index = s.index)) ∧
    (∀ pl oneBit block page, (s.slice p).front.look (dpa / 64) = .miss → s.lineSource p (dpa / 64) = some (.at pl, .media oneBit block page) → d.mode ≠ .sealed →
      Gives (.cxlMemRead p hpa ⟨[], ps⟩ .none) s (fun t => t.out = s.out ∧ (t.slice p).front = (s.slice p).front ∧ (t.head p).inflight = s.nextId :: (s.head p).inflight ∧
        ∃ rd ∈ (t.slice p).reads, rd.line = dpa / 64 ∧ rd.block = block ∧ rd.page = page ∧ rd.chan = ch16 pl.chan ∧ ∃ q, rd.why = .host q ∧ q.id = s.nextId ∧ q.port = p)) ∧
    (∀ pl oneBit block page, (s.slice p).front.look (dpa / 64) = .miss → s.lineSource p (dpa / 64) = some (.at pl, .media oneBit block page) → d.mode = .sealed →
      (s.slice p).tree.suspect = [] → (∀ l x, (treeOf l).isSome = true →
        ((∃ n dirty, (s.slice p).front.look l = .full x n dirty) ∨ ∃ m n, (s.slice p).front.look l = .partly x m n) → x.vld = 0xFF) →
      (s.lostNode p (dpa / 64) = none → Gives (.cxlMemRead p hpa ⟨[], ps⟩ .none) s (fun t => t.out = s.out ∧ (t.head p).inflight = s.nextId :: (s.head p).inflight ∧
        ∃ rd ∈ (t.slice p).reads, rd.line = dpa / 64 ∧ ∃ q, rd.why = .host q ∧ q.id = s.nextId ∧ q.port = p)) ∧
      ((s.lostNode p (dpa / 64)).isSome = true → Gives (.cxlMemRead p hpa ⟨[], ps⟩ .none) s (fun t =>
        ∃ dl v, t.out.head? = some (.cxl p s.nextId false 0 true dl v ((if d.patient then 4000000 else 480000) + s.flitExtra p)))))

/-- R285, R287, R289, R332, R138, R212, Tables 08-7 and 08-8: a host's media read that decodes and checks completes with the line; at its class bound, or
or where it can no longer meet it, it completes with poison and a repair of its line goes on with the ladder: from the step that a Patient read had reached,
from step 2 at the earliest for one over its bound; a leaf-parent that decodes and matches its counter goes into the front store and no read waits for it; a
fill and a repair that decode and check land. The clauses hold where no other codeword waits on the slice and no RESUME is due on the channel. -/
def Obligations.MediaReadsEnd : Prop :=
  ∀ (s : State) (k : SliceId) (rid : Nat) (rd : MediaRead), s.readOf k rid = some rd →
    (∀ r, rd.why = .host r → (s.head r.port).inflight.contains r.id = true → rd.done = false → rid < s.nextId →
      (rd.desc.patient = true → Gives (.patientReadDeadline k rid) s (fun t => (∃ dl v, Out.cxl r.port r.id r.write 0 true dl v (rd.bound + r.extra) ∈ t.out) ∧
        (∀ x ∈ (t.slice k).reads, x.rid ≠ rid) ∧ ∃ x ∈ (t.slice k).reads, x.why = .repair ∧ x.line = rd.line ∧ x.step = rd.step)) ∧
      (s.readIssued k rd = false → Gives (.frOverBound k rid) s (fun t => (∃ dl v, Out.cxl r.port r.id r.write 0 true dl v (rd.bound + r.extra) ∈ t.out) ∧
        (t.chan k rd.chan).arb.overBound = (s.chan k rd.chan).arb.overBound + 1 ∧
        (∀ x ∈ (t.slice k).reads, x.rid ≠ rid) ∧ ∃ x ∈ (t.slice k).reads, x.why = .repair ∧ x.line = rd.line ∧ x.step = max 2 rd.step))) ∧
    ((∀ x ∈ (s.slice k).reads, x.got = none ∧ x.fill = none) → (∀ (j : ChanId) (d : DieId), ∀ b ∈ ((s.chan k j).dies[d]).banks, b.2.due = false) →
      (∀ r sense info n data nk, rd.why = .host r → (s.head r.port).inflight.contains r.id = true → s.readIssued k rd = true → rd.step = 0 → rd.nodes = [] →
        rd.desc.readFill = false → rd.slot = none → cwRead sense.bits = .good info n → s.checkLine rd.desc rd.line info n rd.version = .ok data false nk →
        Gives (.mediaReadStep k rid sense) s (fun t => (∀ x ∈ (t.slice k).reads, x.rid ≠ rid) ∧
          ∃ dl v, t.out.head? = some (.cxl r.port r.id r.write data false dl v (rd.bound + r.extra)))) ∧
      (∀ nd q idx rq mem sense info n, (s.slice k).reads.find? (fun x => match x.why with | .node level _ (some q) _ _ => q == rid && level == 1 | _ => false) = some nd →
        nd.why = .node 1 idx (some q) rq mem → (s.slice k).tree.suspect.contains (2, idx / 8) = false → s.readIssued k nd = true → nd.step = 0 → cwRead sense.bits = .good info n →
        s.nodeOk k 1 idx (s.parentCount k 1 idx) info = true → Gives (.treeNodeFetch k rid true sense) s (fun t =>
          (t.slice k).front = (s.slice k).front.placeClean s.beat.salt s.beat.now (treeLine k.val 1 idx) (infoData info) ∧
          ∀ x ∈ (t.slice k).reads, t.awaits x 1 idx = false)) ∧
      (∀ sense info n data psn nk f how, rd.why = .repair → s.readIssued k rd = true → rd.nodes = [] → rd.slot = none → rd.clean = true →
        ((rd.step = 2 ∧ cwClass sense.bits (cwSoft sense.bits sense.rel) = .good info n) ∨
          (rd.step = 3 ∧ rd.tries = 23 ∧ cwSweep (rd.sweep ++ [sense.bits]) = .good info n)) → s.checkLine rd.desc rd.line info n rd.version = .ok data psn nk →
        (∀ x m fn, (s.slice k).front.look rd.line ≠ .partly x m fn) →
        (s.slice k).front.commit s.beat.salt s.beat.now rd.line (BitVec.allOnes 64) data psn false = some (f, how) →
        Gives (.backgroundRepair k rid sense) s (fun t => (t.slice k).front = f ∧ ∀ x ∈ (t.slice k).reads, x.rid ≠ rid))) ∧
    (∀ n v info c data psn nk, rd.fill = some n → (∀ x ∈ (s.slice k).reads, x.rid ≠ rid → x.fill ≠ some n) → ((s.slice k).front.entry n).filling = true →
      ((s.slice k).front.entry n).present = true → ((s.slice k).front.entry n).seg = rd.line / 32 → rd.touched = [] → rd.desc.mode ≠ .sealed → cwRead v = .good info c →
      s.checkLine rd.desc (rd.line / 4 * 4) info c (if rd.line / 4 * 4 = rd.line then rd.version else s.sealedVersion k (rd.line / 4 * 4)) = .ok data psn nk →
      Gives (.readFillLand k rid [v]) s (fun t =>
        (t.slice k).front = (s.slice k).front.landFill n s.beat.now [(rd.line / 4 * 4 % 32, data, psn)] false ∧ ((t.slice k).front.entry n).filling = false ∧
        ∀ x ∈ (t.slice k).reads, x.rid ≠ rid))

/-- R101, R106, R144, R145, R148, R150, R289, R24, R25, R411: what the slice does on its own account: a fill lands in its lookaside entry, one marked by an
invalidate lands invalid, and the refill of a pinned one starts again; a set's directory is rebuilt from the headers chosen; the oldest word waiting is rewritten; the patrol goes on over a word
without error; a held repair takes a frame or goes on waiting; a relay retrain clears the link's failures in a row or adds one, and the third fails the
link. -/
def Obligations.SliceUpkeep : Prop :=
  ∀ (s : State) (k : SliceId),
    (∀ f d, (s.slice k).fill = some f → f.marked = false → f.desc = some d → (s.slice k).refills = [] → (s.slice k).waiting = [] → Gives (.descriptorFillLand k) s (fun t =>
      (t.slice k).fill = none ∧ SMap.get? (t.slice k).cache f.entry = some ⟨f.region, d.pin, some d⟩ ∧ (t.slice k).front = (s.slice k).front ∧ t.desc = s.desc)) ∧
    (∀ f, (s.slice k).fill = some f → f.marked = true → f.refill = false → (s.slice k).refills = [] → (s.slice k).waiting = [] →
      Gives (.descriptorFillLand k) s (fun t => (t.slice k).fill = none ∧ (t.slice k).cache = (s.slice k).cache ∧ (t.slice k).front = (s.slice k).front ∧ t.desc = s.desc)) ∧
    (∀ f d, (s.slice k).fill = some f → f.marked = true → f.refill = true → SMap.get? s.desc f.region = some d → d.pin = true →
      Gives (.descriptorFillLand k) s (fun t => (∃ g, (t.slice k).fill = some g ∧ g.region = f.region ∧ g.marked = false ∧ g.refill = true ∧ g.desc = some d) ∧
        (t.slice k).waiting = (s.slice k).waiting ∧ (t.slice k).cache = (s.slice k).cache)) ∧
    (∀ set hdrs, set < 8192 → (∀ x ∈ hdrs, x.errs = []) →
      (∀ n, n / 16 = set → n ∉ s.retiredFrames k → ((s.slice k).front.headerOf n hdrs).isSome = true) →
      Gives (.directorySetRebuild k ⟨set, hdrs, [], 0⟩) s (fun t =>
        (∀ n h, n / 16 = set → n ∉ s.retiredFrames k → (s.slice k).front.headerOf n hdrs = some h →
          ((t.slice k).front.entry n).present = h.present ∧ (h.present = true → ((t.slice k).front.entry n).seg = h.seg ∧
            ((t.slice k).front.entry n).valid = h.valid ∧ ((t.slice k).front.entry n).dirty = h.dirty)) ∧
        (∀ n, n / 16 ≠ set → (t.slice k).front.entry n = (s.slice k).front.entry n) ∧ (t.slice k).front.spill = (s.slice k).front.spill)) ∧
    (exec (.sramWordRewrite k) s = .next (s.updFront k (fun f => { f with rewrites := f.rewrites.drop 1 }))) ∧
    ((∀ line, (s.slice k).front.lineOfWord (s.slice k).front.patrol = some line → ∃ x : Words, x.vld.getLsbD ((s.slice k).front.patrol % 8) = true ∧
        ((∃ n dirty, (s.slice k).front.look line = .full x n dirty) ∨ ∃ m n, (s.slice k).front.look line = .partly x m n)) →
      Gives (.sramPatrol k 0) s (fun t => (t.slice k).front = { (s.slice k).front with
        patrol := if (s.slice k).front.patrol + 1 < 67108864 then (s.slice k).front.patrol + 1 else 0 })) ∧
    (∀ line d psn, (s.slice k).holding = [(line, d, psn)] → (∀ x m n, (s.slice k).front.look line ≠ .partly x m n) →
      (∀ f how, (s.slice k).front.commit s.beat.salt s.beat.now line (BitVec.allOnes 64) d psn false = some (f, how) →
        Gives (.repairFrameRetry k) s (fun t => (t.slice k).front = f ∧ (t.slice k).holding = [])) ∧
      ((s.slice k).front.commit s.beat.salt s.beat.now line (BitVec.allOnes 64) d psn false = none →
        Gives (.repairFrameRetry k) s (fun t => (t.slice k).front = (s.slice k).front ∧ (t.slice k).holding = [(line, d, psn)]))) ∧
    (∀ b, k ≠ b → s.present k = true → s.present b = true →
      (∀ n, Gives (.relayFecFailure k ⟨b, n⟩) s (fun t => t.health = { s.health with errors := s.health.errors.set 7 (s.health.errors[7] + 1) } ∧
        t = { s with health := t.health, slices := t.slices } ∧ ∀ q, (t.slice q).front = (s.slice q).front ∧ (t.slice q).media = (s.slice q).media)) ∧
      Gives (.relayRetrain k b true) s (fun t => SMap.get? t.health.linkFails (s.linkIx k b) = none ∧ t.health.links = s.health.links) ∧
      Gives (.relayRetrain k b false) s (fun t => SMap.get? t.health.linkFails (s.linkIx k b) = some (SMap.getD s.health.linkFails (s.linkIx k b) 0 + 1) ∧
        (SMap.getD s.health.linkFails (s.linkIx k b) 0 = 2 → s.linkIx k b < 28 → t.linkUp k b = false) ∧
        (SMap.getD s.health.linkFails (s.linkIx k b) 0 < 2 → t.health.links = s.health.links)))

/-- R41, R490: a port that is enabled, free of resets and powered trains to the widest width and the highest rate that the host, the port's limits, the
flit modes shared at that rate and the reference clock allow, in the L0 state, or stays down; no other link changes. -/
def Obligations.LinksTrain : Prop :=
  ∀ (s : State) (p : Port) (host : LinkCaps), s.present p = true → (s.head p).enabled = true → (s.head p).held = 0 → s.power.flush = .idle →
    s.power.sramLoss = false → s.serdesRails = true → Gives (.linkTraining p host) s (fun t =>
      (∀ w r f, bestWidth (s.limitCaps p host) = some w → bestRate (s.limitCaps p host) = some (r, f) → (t.head p).link = some ⟨w, r, f, host.clock, false⟩) ∧
      (bestWidth (s.limitCaps p host) = none ∨ bestRate (s.limitCaps p host) = none → (t.head p).link = none) ∧
      (∀ q, q ≠ p → (t.head q).link = (s.head q).link) ∧ t.slices = s.slices ∧ t.desc = s.desc ∧ t.led = s.led)

/-- R60, R62, R63, Table 02-11: an IDE key sent to a port with KEYS makes its stream Secure; a MAC failure of a Secure stream makes it Insecure and
raises the security alarm with cause 3 on every head. -/
def Obligations.IdeStreams : Prop :=
  ∀ (s : State) (p : Port),
    (∀ key, (s.roles p).getLsbD 2 = true →
      Gives (.ideKmMessage p true key) s (fun t => (t.head p).ideMem = ⟨.secure, key⟩ ∧ (t.head p).ideIo = (s.head p).ideIo ∧ t.slices = s.slices ∧ t.desc = s.desc) ∧
      Gives (.ideKmMessage p false key) s (fun t => (t.head p).ideIo = ⟨.secure, key⟩ ∧ (t.head p).ideMem = (s.head p).ideMem ∧ t.slices = s.slices ∧ t.desc = s.desc)) ∧
    (s.present p = true → (s.head p).ideMem.st = .secure → Gives (.ideMacFailure p true) s (fun t =>
      (t.head p).ideMem.st = .insecure ∧ t.power.secAlarmL = false ∧ (∀ q, (t.head q).alarm.sec = true) ∧
      (∀ q, (s.head q).alarm.sec = false → (t.head q).alarm.cause = 3 ∧ (t.head q).alarm.slice.toNat = p.val) ∧
      (∀ q, (t.head q).alarm.count = satInc (s.head q).alarm.count) ∧ t.desc = s.desc ∧ t.index = s.index ∧ t.keys = s.keys))

/-- R50, R76, R451, R453, R462, R465, Tables 14-1 and 14-2: a persistent flush request is answered at once and changes nothing; PERST, a hot reset and a
stopped reference clock hold the port, take its link down, return its decoders, IDE streams, MSI-X table, queue and credits to their reset values and
discard its reads in flight, and record their cause bit and the reach; labels, logs, regions, keys and the other ports' links and causes stay; the release
of a source takes its hold off. -/
def Obligations.PortResets : Prop :=
  ∀ (s : State) (p : Port),
    (∀ ph, exec (.gpfRequest p ph) s = .next { s with out := .gpf p ph :: s.out }) ∧
    (s.present p = true → s.starting = false → (s.head p).held = 0 →
      (s.power.flush = .idle → s.firm.store = none → Gives (.perst p) s (fun t => (t.head p).held = 1 ∧ (t.head p).link = none ∧ (t.head p).inflight = [] ∧
        (t.head p).cause.bits = setBit (s.head p).cause.bits 8 true ∧ (t.head p).cause.lastReach = 4 ∧ PortAtReset s t p ∧ (t.head p).lsa = (s.head p).lsa ∧ (t.head p).logs = (s.head p).logs ∧
        t.desc = s.desc ∧ t.keys = s.keys ∧ t.led = s.led ∧ ∀ q, q ≠ p → (t.head q).cause = (s.head q).cause ∧ (t.head q).link = (s.head q).link)) ∧
      Gives (.hotReset p) s (fun t => (t.head p).held = 2 ∧ (t.head p).link = none ∧ (t.head p).inflight = [] ∧
        (t.head p).cause.bits = setBit (s.head p).cause.bits 9 true ∧ (t.head p).cause.lastReach = 4 ∧ PortAtReset s t p ∧ (t.head p).lsa = (s.head p).lsa ∧ (t.head p).logs = (s.head p).logs ∧
        t.desc = s.desc ∧ t.keys = s.keys ∧ t.led = s.led ∧ ∀ q, q ≠ p → (t.head q).cause = (s.head q).cause ∧ (t.head q).link = (s.head q).link) ∧
      Gives (.refclkStop p) s (fun t => (t.head p).held = 4 ∧ (t.head p).link = none ∧ (t.head p).inflight = [] ∧
        (t.head p).cause.bits = (s.head p).cause.bits ∧ (t.head p).cause.lastReach = 4 ∧ PortAtReset s t p ∧ (t.head p).lsa = (s.head p).lsa ∧ (t.head p).logs = (s.head p).logs ∧
        t.desc = s.desc ∧ t.keys = s.keys ∧ t.led = s.led ∧ ∀ q, q ≠ p → (t.head q).cause = (s.head q).cause ∧ (t.head q).link = (s.head q).link)) ∧
    exec (.resetSourceRelease .resetPin) s = .next { s with rst := { s.rst with pinHeld := false } } ∧
    exec (.resetSourceRelease (.perst p)) s = .next (s.updHead p (fun h => { h with held := setBit h.held 0 false })) ∧
    exec (.resetSourceRelease (.hot p)) s = .next (s.updHead p (fun h => { h with held := setBit h.held 1 false })) ∧
    exec (.resetSourceRelease (.refclk p)) s = .next (s.updHead p (fun h => { h with held := setBit h.held 2 false }))

/-- R45, R46: a legal decoder commit below the capacity and clear of the head's other decoders commits exactly what was asked; a locked one reports
Error Not Committed and changes nothing. Where a decoder's device addresses start is the model's reading (log entry 9). -/
def Obligations.DecodersCommit : Prop :=
  ∀ (s : State) (p : Port) (i : Fin 8) (d : HdmReq), s.present p = true →
    (((s.head p).dec[i]).lock = true → ((s.head p).dec[i]).committed = true → exec (.hdmDecoderCommit p i d) s = .next { s with out := .hdm p false :: s.out }) ∧
    (legalHdm d = false → exec (.hdmDecoderCommit p i d) s = .next { s with out := .hdm p false :: s.out }) ∧
    (((s.head p).dec[i]).lock = false → legalHdm d = true → (∀ j : Fin 8, ((s.head p).dec[j]).committed = false) →
      d.skip + d.size / d.ways ≤ s.capacity →
      exec (.hdmDecoderCommit p i d) s =
        .next { s.updHead p (fun h => { h with dec := h.dec.set i ⟨true, d.lock, d.base, d.size, d.skip, d.ways, d.gran⟩ }) with out := .hdm p true :: s.out })

/-- R13, R14, R15, R16, R43, R53, R62, Tables 02-8, 02-11, 02-12, 02-14, 02-17: a 64-bit write acts on each field by its access code: write-one-to-clear
bits clear where the value has ones, a set FLUSH empties the queue as the other fields of TQ_CTRL take the write, read-write fields take it, read-only
registers and offsets without a register do not change; viral enable and the base addresses are written in configuration space, whose layout is the
model's (log entry 67); while the port's CXL.io stream is Insecure no write does anything. -/
def Obligations.RegisterWrites : Prop :=
  ∀ (s : State) (p : Port) (v : BitVec 64),
    (s.ioOpen p = false → ∀ off wide, exec (.registerWrite p off wide v) s = .next s) ∧
    (s.ioOpen p = true →
      exec (.registerWrite p 0x8018 true v) s = .next (s.updHead p (fun h => { h with cause := { h.cause with
        bits := h.cause.bits &&& ~~~(v.setWidth 11), sliceMask := h.cause.sliceMask &&& ~~~(v.extractLsb' 16 8) } })) ∧
      exec (.registerWrite p 0x8048 true v) s = .next { s with beat := { s.beat with
        codeErr := s.beat.codeErr && !v.getLsbD 5, resync := s.beat.resync && !v.getLsbD 6, backward := s.beat.backward && !v.getLsbD 7 } } ∧
      exec (.registerWrite p 0x8108 true v) s = .next (s.updHead p (fun h => { h with tq := { h.tq with
        underrun := h.tq.underrun && !v.getLsbD 16, overrun := h.tq.overrun && !v.getLsbD 17 } })) ∧
      exec (.registerWrite p 0x8110 true v) s = .next (s.updHead p (fun h => { h with tq := { h.tq with
        q := if v.getLsbD 1 then [] else h.tq.q, dropped := if v.getLsbD 1 then 0 else h.tq.dropped,
        enable := v.getLsbD 0, threshold := v.extractLsb' 8 10, irqEn := v.getLsbD 18 } })) ∧
      (v.getLsbD 0 = true → s.hasManage p = true → Gives (.registerWrite p 0x8010 true v) s (fun t => (∀ q, (t.head q).alarm = ⟨false, 0, 0, 0, 0⟩) ∧
        t.power.secAlarmL = true ∧ t.slices = s.slices ∧ t.desc = s.desc)) ∧
      (v.getLsbD 0 = false → exec (.registerWrite p 0x8010 true v) s = .next s) ∧
      exec (.registerWrite p 0x10108 true v) s = .next (s.updHead p (fun h => { h with viralEn := v.getLsbD 46 })) ∧
      exec (.registerWrite p 0x10010 true v) s = .next (s.updHead p (fun h => { h with bar0 := v &&& barMask })) ∧
      exec (.registerWrite p 0x10018 true v) s = .next (s.updHead p (fun h => { h with bar2 := v &&& barMask })) ∧
      exec (.registerWrite p 0x2200 true v) s = .next (s.updHead p (fun h => { h with dbInt := v.getLsbD 33, bgInt := v.getLsbD 34 })) ∧
      (∀ n : Fin 8, exec (.registerWrite p (0xE000 + 16 * n.val) true v) s =
        .next (s.updHead p (fun h => { h with msix := h.msix.set n { h.msix[n] with addr := v } }))) ∧
      (∀ n : Fin 8, (((s.head p).msix[n]).masked = false ∨ v.getLsbD 32 = true ∨ (s.head p).pba.getLsbD n.val = false) →
        exec (.registerWrite p (0xE008 + 16 * n.val) true v) s =
          .next (s.updHead p (fun h => { h with msix := h.msix.set n { h.msix[n] with data := v.setWidth 32, masked := v.getLsbD 32 } }))) ∧
      (∀ off, (0x8000 ≤ off ∧ off < 0xA000) → off / 8 * 8 ≠ 0x8010 → off / 8 * 8 ≠ 0x8018 → off / 8 * 8 ≠ 0x8048 → off / 8 * 8 ≠ 0x8108 → off / 8 * 8 ≠ 0x8110 →
        ∀ wide, exec (.registerWrite p off wide v) s = .next s))

/-- R62, R77, R78, R504, R507, R508, Tables 02-2, 02-9 to 02-17: an aligned 64-bit read gives a register whole, its read-only fields as the last baton carried
them and those that a host writes as they are; a low-half read gives the low half and latches the high half, which the next high-half read of that
register returns; a baton carries a register to its shadow, but for the counter page of a slice that does not work; the telemetry queue gives its oldest
entry, then the last one with UNDERRUN; a flush empties it; the alarm is cleared on every head by a port with MANAGE, on its own by another; while the port's
CXL.io stream is Insecure none of these reads or writes does anything. -/
def Obligations.RegisterReads : Prop :=
  ∀ (s : State) (p : Port),
    (s.ioOpen p = false → (∀ off wide, exec (.regLowHalfRead p ⟨off, wide⟩) s = .next s) ∧ exec (.secAlarmClear p) s = .next s ∧
      (∀ wide, exec (.tqDataRead p wide) s = .next s) ∧ ∀ v, exec (.tqFlush p v) s = .next s) ∧
    (s.ioOpen p = true →
      (∀ off, off % 8 = 0 → 0x8000 ≤ off → off < 0xA000 → off ≠ 0x8100 → ∀ v, v = (s.regNow p off &&& hostFields off) ||| (s.carried p off &&& ~~~hostFields off) →
        exec (.regLowHalfRead p ⟨off, true⟩) s = .next { s with free := s.free + 1, out := .reg p off v :: s.out } ∧
        Gives (.regLowHalfRead p ⟨off, false⟩) s (fun t => t.out = .reg p off (v &&& 0xFFFFFFFF) :: s.out ∧ SMap.get? (t.head p).latch off = some (v.extractLsb' 32 32) ∧
          t = { s.updHead p (fun h => { h with latch := (t.head p).latch }) with out := t.out, free := t.free })) ∧
      (∀ off hi, off % 8 = 0 → SMap.get? (s.head p).latch off = some hi → Gives (.regLowHalfRead p ⟨off + 4, false⟩) s (fun t =>
        t.out = .reg p (off + 4) (hi.setWidth 64) :: s.out ∧ SMap.get? (t.head p).latch off = none ∧
        t = { s.updHead p (fun h => { h with latch := (t.head p).latch }) with out := t.out, free := t.free })) ∧
      (s.hasManage p = true → Gives (.secAlarmClear p) s (fun t => (∀ q, (t.head q).alarm = ⟨false, 0, 0, 0, 0⟩) ∧ t.power.secAlarmL = true ∧
        t = { s with heads := t.heads, power := { s.power with secAlarmL := true }, out := t.out })) ∧
      (s.hasManage p = false → exec (.secAlarmClear p) s = .next (s.updHead p (fun h => { h with alarm := ⟨false, 0, 0, 0, 0⟩ }))) ∧
      (∀ w b rest, (s.head p).tq.q = (w, b) :: rest → exec (.tqDataRead p true) s =
        .next { s.updHead p (fun h => { h with tq := { h.tq with q := rest, last := w } }) with out := .reg p 0x8100 w :: s.out }) ∧
      ((s.head p).tq.q = [] → exec (.tqDataRead p true) s =
        .next { s.updHead p (fun h => { h with tq := { h.tq with underrun := true } }) with out := .reg p 0x8100 (s.head p).tq.last :: s.out }) ∧
      (∀ v : BitVec 64, v.getLsbD 1 = true → exec (.tqFlush p v) s = .next (s.updHead p (fun h => { h with tq := { h.tq with
        q := [], dropped := 0, enable := v.getLsbD 0, threshold := v.extractLsb' 8 10, irqEn := v.getLsbD 18 } })))) ∧
    (s.present p = true → ∀ off, off % 8 = 0 →
      (0x8000 ≤ off → off < 0x9000 → Gives (.shadowRefresh p off) s (fun t => t.carried p off = s.regNow p off ∧
        (∀ o, o ≠ off → SMap.get? (t.head p).shadow o = SMap.get? (s.head p).shadow o) ∧ t = { s with heads := t.heads, out := t.out })) ∧
      (0x9000 ≤ off → off < 0xA000 → s.working p = false → (s.head p).userRead = true → exec (.shadowRefresh p off) s = .next s))

/-- R48, R514, R515: with no throttling a metering window opens without a limit; under throttling it returns at most its quota of admissions, request
credits first (the split between the two kinds is the model's choice, log entry 16). R71: a finished entry of the duplicate table leaves it after
10,000,000 beats. -/
def Obligations.MeteringAndExpiry : Prop :=
  ∀ (s : State) (p : Port),
    (s.present p = true → (s.head p).link ≠ none → (s.head p).enabled = true → s.dataWithheld = false →
      (s.pctMin = 100 → exec (.meterWindow p) s = .next (s.updHead p (fun h => { h with window := 0 }))) ∧
      (s.pctMin ≠ 100 → s.allWithheld p = false → (s.head p).credR ≤ 256 → (s.head p).credD ≤ 256 → Gives (.meterWindow p) s (fun t =>
        (t.head p).credR = (s.head p).credR + min (s.windowQuota p) (256 - (s.head p).credR) ∧ (t.head p).credR ≤ 256 ∧ (t.head p).credD ≤ 256 ∧
        ((t.head p).credR - (s.head p).credR) + ((t.head p).credD - (s.head p).credD) + (t.head p).window = s.windowQuota p ∧
        ∀ q, q ≠ p → t.head q = s.head q))) ∧
    (∀ tag, Gives (.dupEntryExpire p tag) s (fun t => t = s.updHead p (fun h => { h with dup := (t.head p).dup }) ∧
      ∀ e, e ∈ (t.head p).dup ↔ e ∈ (s.head p).dup ∧ ¬ (e.tag = tag ∧ e.rsp.isSome = true ∧ e.done + 10000000 ≤ s.beat.events)))

/-- R256, R257, R258, R260, R262, R265, R266: an accepted edge, and while the beat is lost a derived one, is a beat event: the counter rises by one
unless it slews; a short pulse is only counted; 3 µs without an edge lose the beat, and the eighth regular edge brings it back. -/
def Obligations.BeatEventsCount : Prop :=
  ∀ (s : State),
    (∀ high since, 40 ≤ high → (s.beat.taken = true → 900 ≤ since) → s.beat.lost = false → Gives (.beatEdge high since) s (fun t =>
      t.beat.events = s.beat.events + 1 ∧ (s.beat.slew = 0 → t.beat.now = s.beat.now + 1) ∧ t.beat.taken = true ∧
      (high < 450 → ∀ n v, s.beat.frame = some (n, v) → n < 80 → t.beat.frame = some (n + 1, (v <<< 1) ||| (if 200 ≤ high then 1 else 0))) ∧
      (450 ≤ high → high ≤ 900 → t.beat.frame = some (0, 0) ∧ t.beat.stride = 0) ∧ t.desc = s.desc ∧ t.index = s.index ∧ t.keys = s.keys)) ∧
    (∀ high since, high < 40 → Gives (.beatEdge high since) s (fun t => t = { s with slices := t.slices } ∧ t.beat = s.beat)) ∧
    (∀ ns, 3000 ≤ ns → s.beat.lost = false → Gives (.beatLost ns) s (fun t => t.beat.lost = true ∧ t.beat.lossDeclared = true ∧
      t.beat.lostCount = satInc s.beat.lostCount ∧ t.beat.frame = none ∧ t.beat.events = s.beat.events + 3 ∧ (s.beat.slew = 0 → t.beat.now = s.beat.now + 3))) ∧
    (s.beat.lost = true → Gives .derivedBeat s (fun t => t.beat.events = s.beat.events + 1 ∧ (s.beat.slew = 0 → t.beat.now = s.beat.now + 1) ∧ t.beat.lost = true)) ∧
    (∀ high since ago, s.beat.lost = true → s.beat.regular = 7 → 40 ≤ high → 900 ≤ since → since ≤ 1100 → Gives (.beatReturn high since ago) s (fun t =>
      t.beat.lost = false ∧ t.beat.resync = true ∧ t.beat.regular = 0 ∧ t.beat.events = s.beat.events + (if ago < 500 then 0 else 1) ∧
      (s.beat.slew = 0 → t.beat.now = s.beat.now + (if ago < 500 then 0 else 1))))

/-- R196, R197, R254, R305, R525, R526, R527: what a beat event does in a slice that is not lost: every channel's arbiter credits are refilled, the
governor's tokens grow, every die's scrub deadline comes one beat nearer, and a channel that is up accounts 400 slots, raising no request where the slice does not work; the
channels, media, front store and Pacer of a lost slice do not change. R525, R526, R527: the 400 slots of a beat are shared out
without remainder between retired, wasted, front-starved and back-starved, and what could not be placed is carried over. -/
def Obligations.BeatsDriveSlices : Prop :=
  (∀ (s : State) (k : SliceId) (j : ChanId), s.beat.lost = true → s.present k = true → (s.slice k).st ≠ .lost → Gives .derivedBeat s (fun t =>
    (∀ d : DieId, ((t.chan k j).dies[d]).scrubDue = ((s.chan k j).dies[d]).scrubDue - 1) ∧
    (t.slice k).pacer.pos = (s.slice k).pacer.pos.map (· + 1) ∧ (t.chan k j).arb.credits = (s.chan k j).arb.refill.credits ∧
    ((s.chan k j).up = true → s.channelRail k = true → (t.chan k j).acct[0] = (s.chan k j).acct[0] - 400) ∧
    ((s.chan k j).up = false → (t.chan k j).arb = (s.chan k j).arb.refill ∧ (t.chan k j).acct = (s.chan k j).acct) ∧
    (s.working k = false → (t.chan k j).arb = (s.chan k j).arb.refill) ∧
    (t.slice k).media.tokens = (s.beatTokens (s.slice k).media).tokens ∧ (t.slice k).front = (s.slice k).front)) ∧
  (∀ (s : State) (k : SliceId), s.beat.lost = true → (s.slice k).st = .lost → Gives .derivedBeat s (fun t => (t.slice k).chans = (s.slice k).chans ∧
    (t.slice k).media = (s.slice k).media ∧ (t.slice k).front = (s.slice k).front ∧ (t.slice k).pacer = (s.slice k).pacer)) ∧
  (∀ (acct : Vector Nat 2) (waiting : Bool) (r w f b : Nat) (left : Vector Nat 2), slotShare acct waiting = ((r, w, f, b), left) →
    r + w + f + b = 400 ∧ r + left[0] = acct[0] ∧ w + left[1] = acct[1] ∧ (waiting = true → f = 0) ∧ (waiting = false → b = 0))

/-- R259, R260, R267, R268, R269, R278: the 80th pulse of a frame whose CRC matches fixes an unfixed epoch at its target, steps a code epoch that is
behind and slews one that is ahead; a frame whose CRC fails, or one with a pulse that was no beat, only sets CODE_ERR; an epoch of neither kind is provisional after 30,000,000 beat events. R268, R399:
EPOCH_SET at or after the time read fixes the epoch as a host's, moves the beat to it, and records the moment and the change. -/
def Obligations.EpochsAreFixed : Prop :=
  (∀ (s : State),
    (∀ v, s.beat.frame = some (80, v) →
      (frameEpoch v = none → exec .beatCodeFrame s = .next { s with beat := { s.beat with frame := none, codeErr := true } }) ∧
      (∀ e, frameEpoch v = some e →
        (s.beat.spoiled = true → exec .beatCodeFrame s = .next { s with beat := { s.beat with frame := none, codeErr := true } }) ∧
        (s.beat.spoiled = false → s.beat.loaded = false → exec .beatCodeFrame s = .next { s with beat := { s.beat with frame := none, sinceValid := some 0, heldFrame := some (e, 0) } }) ∧
        (s.beat.spoiled = false → s.beat.loaded = true → s.beat.epoch = .unfixed → s.beat.now ≤ e + 80 → Gives .beatCodeFrame s (fun t => t.beat.epoch = .code ∧ t.beat.now = e + 80 ∧
          t.beat.tFix = s.beat.now ∧ t.beat.delta = e + 80 - s.beat.now ∧ t.desc = s.desc ∧ t.index = s.index)) ∧
        (s.beat.spoiled = false → s.beat.loaded = true → s.beat.epoch = Epoch.code → s.beat.now < e + 80 → exec .beatCodeFrame s = .next { s with beat := { s.beat with
          frame := none, sinceValid := some 0, now := e + 80, slew := 0, slewOdd := false, resync := true } }) ∧
        (s.beat.spoiled = false → s.beat.loaded = true → s.beat.epoch = Epoch.code → e + 80 < s.beat.now → exec .beatCodeFrame s = .next { s with beat := { s.beat with
          frame := none, sinceValid := some 0, slew := s.beat.now.toNat - (e + 80).toNat, slewOdd := false, resync := true } }))) ∧
    (s.beat.epoch = .unfixed → 30000000 ≤ s.beat.events → Gives .epochProvisional s (fun t => t.beat.epoch = .provisional ∧ t.beat.now = s.beat.now ∧ t.beat.delta = 0 ∧
      t.beat.tFix = s.beat.now ∧ t.desc = s.desc ∧ t.index = s.index))) ∧
  (∀ (s : State) (p : Port) (pl : List Byte), s.vendorReady p (some 1) 16 pl = true → s.beat.source ≠ 0 → s.beat.epoch = .unfixed →
    s.beat.now ≤ BitVec.ofNat 64 (field pl 8 8) → Gives (.epochSet (.head p) pl) s (fun t =>
      t.beat.epoch = .host ∧ t.beat.now.toNat = field pl 8 8 ∧ t.beat.tFix = s.beat.now ∧ t.beat.delta = t.beat.now - s.beat.now ∧
      t.desc = s.desc ∧ t.index = s.index ∧ t.keys = s.keys ∧ ∃ out, field out 0 8 = field pl 8 8 ∧ t.out.head? = some (.mailbox (.head p) .success (vHead 0 0 0 ++ out))))

/-- R178, R245, R275, R277, R278, R279, R308: a re-ageing pass gives each block of a slice its new PROGRAM_BEAT and trust, a measured one once a READ_TS reply
that passes its CRC-8 gives the block's own offsets, and TEMP_MAX its die's band; a block whose reply fails stays pending; a sweep of the ages asks for the refresh of blocks past their limit. R281, R307, R401 (Table 12-11): LENS_CALIBRATE reads out the 60
entries of one die, puts a die's defaults of the active image back, or starts a sweep. -/
def Obligations.AgeingAndTheLens : Prop :=
  (∀ (s : State) (k : SliceId),
    (∀ key b, s.timeRec.pass = 1 → (s.slice k).passTodo = [key] → SMap.get? (s.slice k).media.blocks key = some b → key < 2 ^ 21 →
      fullBeat b.beat (s.timeRec.l.toNat + 2 ^ 47) ≤ s.beat.now.toNat → (∃ q ∈ s.liveSlices, q ≠ k ∧ (s.slice q).passTodo ≠ []) →
      ∀ x, x = exactBeat s.beat.now.toNat s.timeRec.l.toNat s.timeRec.w.toNat s.timeRec.tFix.toNat s.timeRec.delta.toNat b →
      Gives (.exactPass k) s (fun t => (fullBeat x.1 (s.timeRec.l.toNat + 2 ^ 47) ≤ s.beat.now.toNat → (t.slice k).passTodo = []) ∧
        (∃ b', SMap.get? (t.slice k).media.blocks key = some b' ∧ b'.untrusted = false ∧ b'.beat = x.1 ∧ b'.use = b.use) ∧
        t.desc = s.desc ∧ t.index = s.index ∧ t.keys = s.keys)) ∧
    (∀ key b reply, s.timeRec.pass ≠ 0 → SMap.get? (s.slice k).media.blocks key = some b → key < 2 ^ 21 → s.present k = true → (s.slice k).st ≠ .lost →
      (s.slice k).passTodo.find? (fun n => decide (n / 131072 = (ch16 (key / 131072)).val)) = some key →
      (s.chan k (ch16 (key / 131072))).arb.queue.any (fun r => r.work == .calib (fin8 (key / 16384)).val) = false → (∃ x ∈ (s.slice k).passTodo, x ≠ key) →
      (∀ page, goodReply 8 reply = true → tsMeasured reply = some (key % 16384, page) → Gives (.measuredPassBlock k key reply) s (fun t =>
        (t.slice k).passTodo = (s.slice k).passTodo.filter (· != key) ∧ t.timeRec.progress = s.timeRec.progress + 1 ∧
        (∃ b', SMap.get? (t.slice k).media.blocks key = some b' ∧ b'.untrusted = false ∧ b'.use = b.use ∧
          b'.tempMax = ((s.chan k (ch16 (key / 131072))).dies[fin8 (key / 16384)]).band) ∧
        t.desc = s.desc ∧ t.index = s.index ∧ t.keys = s.keys)) ∧
      (goodReply 8 reply = false → Gives (.measuredPassBlock k key reply) s (fun t => (t.slice k).passTodo = (s.slice k).passTodo ∧ t.timeRec = s.timeRec ∧
        (t.slice k).media = (s.slice k).media ∧ t = { s with slices := t.slices }))) ∧
    ((s.slice k).pacer.sweepAt + 2 ^ 24 ≤ s.beat.events → Gives (.ageSweep k) s (fun t => (t.slice k).pacer.sweepAt = s.beat.events ∧ t = { s with slices := t.slices } ∧
      (∀ q, q ≠ k → t.slice q = s.slice q) ∧ (s.calibrating = false →
        ∀ key b, SMap.get? (s.slice k).media.blocks key = some b → b.use = .data → 10 ^ 13 ≤ s.age b →
          (SMap.get? (t.slice k).media.blocks key).map (·.refresh) = some true)))) ∧
  (∀ (s : State) (p : Port) (pl : List Byte) (k : SliceId), s.vendorReady p (some 1) 12 pl = true → field pl 5 1 = k.val → s.present k = true →
    (s.slice k).clkAlive = true → s.sliceClash k.val = none → (s.head p).bg = none → (∀ j ∈ maskChans (field pl 6 2), s.chanAbsent k.val j.val = false) →
    (∀ d ∈ maskSlices (field pl 8 1), d.val < s.dies) →
    (∀ (j : ChanId) (d : DieId), field pl 4 1 = 2 → field pl 9 1 ≤ 1 → maskChans (field pl 6 2) = [j] → maskSlices (field pl 8 1) = [d] →
      Gives (.lensCalibrate (.head p) pl) s (fun t => ∃ out, t = s.told p out ∧ field out 0 8 = 60 ∧
        ∀ i, i < 60 → field out (8 + 8 * i) 8 = ((s.slice k).lensEntry (j.val * 8 + d.val) (decide (field pl 9 1 = 1)) (i % 12) (i / 12)).toNat)) ∧
    (field pl 4 1 = 0 → (∀ j ∈ maskChans (field pl 6 2), (s.chan k j).up = false) → Gives (.lensCalibrate (.head p) pl) s (fun t =>
      ∃ u : State, t = u.told p (leBytes 8 0) ∧ u = s.updSlice k (fun x => { x with lens := u.slices[k].lens, lensImages := u.slices[k].lensImages }) ∧
        (∀ j d, (j, d) ∈ lensTargets pl → SMap.get? u.slices[k].lensImages (j.val * 8 + d.val) = some s.activeImage) ∧
        u.slices[k].lens = (s.slice k).lens.filter (fun e => (lensTargets pl).all (fun t => decide (e.1 / 120 ≠ t.1.val * 8 + t.2.val))))) ∧
    (field pl 4 1 = 1 → ∀ todo, todo = (lensTargets pl).flatMap (fun t => (s.combos k (t.1.val * 8 + t.2.val)).map (fun c => (t.1.val * 8 + t.2.val, c.1, c.2))) → todo ≠ [] →
      Gives (.lensCalibrate (.head p) pl) s (fun t => (t.head p).bg = some ⟨.lensSweep k todo, 0xC032, 0, 0, false, 0⟩ ∧ t.desc = s.desc ∧ t.led = s.led)))

/-- R171, R178, R245, R283, R284, R305, R306, R307: calibration and scrub: a die is sampled when its interval is over, a measured read whose reply passes its
CRC-8 leaves its offsets in set 31 and moves its combination to the end of the order, a failed reply is asked for again; a scrub read takes a sector of the
pass that is still to be read, under the quota; with what its requests brought it goes up the ladder, or ends and asks for a refresh where a codeword needed too
much; and a late pass is counted once and due at once. That a read which begins at step 1 needs more than that step is the model's reading (log entry 97). -/
def Obligations.DiesAreCared : Prop :=
  ∀ (s : State) (k : SliceId) (j : ChanId) (d : DieId), ((s.chan k j).dies[d]).present = true → ((s.chan k j).dies[d]).failed = false →
    (s.timeRec.pass ≠ 2 → s.sweeping k = false → ((s.chan k j).dies[d]).calAt + (s.slice k).pacer.parm.cal ≤ s.beat.events → Gives (.calibrationInterval k j d) s (fun t =>
      ((t.chan k j).dies[d]).calAt = s.beat.events ∧ (t.slice k).media = (s.slice k).media ∧ t.desc = s.desc ∧ t.led = s.led ∧
      (s.combos k (j.val * 8 + d.val) = [] → t = s.updChan k j (·.updDie d (fun x => { x with calAt := s.beat.events }))))) ∧
    (∀ blk reply, ((s.slice k).media.block j.val d.val blk).holds = true → (s.chan k j).arb.queue.any (fun r => r.work == .calib d.val && r.block == blk) = false →
      s.sweeping k = false →
      (goodReply 8 reply = true → Gives (.calibrationRead k j d blk reply) s (fun t => ((t.chan k j).dies[d]).calPtr = blk + 1 ∧
        ((t.chan k j).dies[d]).calOrder.getLast? = some (((s.slice k).media.block j.val d.val blk).mode == 2, s.effBand ((s.slice k).media.block j.val d.val blk)) ∧
        (∀ page, tsMeasured reply = some (blk, page) → SMap.get? ((t.chan k j).dies[d]).sets 31 = some (tsOffsets reply)) ∧
        t.desc = s.desc ∧ t.index = s.index)) ∧
      (goodReply 8 reply = false → ((s.chan k j).dies[d]).tsTries + 1 < 3 → Gives (.calibrationRead k j d blk reply) s (fun t =>
        ((t.chan k j).dies[d]).tsTries = ((s.chan k j).dies[d]).tsTries + 1 ∧ ((t.chan k j).dies[d]).calOrder = ((s.chan k j).dies[d]).calOrder ∧
        (∃ r, (t.chan k j).arb.queue = (s.chan k j).arb.queue ++ [r] ∧ r.sq = .readTs ∧ r.rq = .cb ∧ r.die = d ∧ r.block = blk) ∧ t = { s with slices := t.slices }))) ∧
    (∀ blk page sector rs, (((s.chan k j).dies[d]).scrub = none → ((s.slice k).media.block j.val d.val blk).use ∈ [Use.data, .journal, .reserved] →
      blk < 16384 → page < s.writtenPages k j.val d.val blk → sector < 16 → (SMap.getD ((s.chan k j).dies[d]).scrubTodo blk 0).testBit (16 * page + sector) = true →
      2 ^ 32 ≤ ((s.chan k j).dies[d]).quota → ∀ st, st = s.firstStep ((s.slice k).media.block j.val d.val blk) → Gives (.scrubRead k j d blk page sector rs) s (fun t =>
        ((t.chan k j).dies[d]).scrub = some ⟨blk, page, sector, st, st, [0, 1, 2, 3], 0, 0⟩ ∧
        (SMap.getD ((t.chan k j).dies[d]).scrubTodo blk 0).testBit (16 * page + sector) = false ∧ ((t.chan k j).dies[d]).quota = ((s.chan k j).dies[d]).quota - 2 ^ 32 ∧
        (∃ q, (t.chan k j).arb.queue = (s.chan k j).arb.queue ++ [q] ∧ q.rq = .sc ∧ q.sq = .read ∧ q.die = d ∧ q.block = blk ∧ q.page = page ∧ q.work = .scrub d.val) ∧
        t = { s with slices := t.slices }))) ∧
    (∀ (x : ScrubRead) rs, ((s.chan k j).dies[d]).scrub = some x → (s.chan k j).workDone (.scrub d.val) = true → x.wants ≤ rs.length →
      (x.step < 2 → (x.lands rs).bad ≠ [] → Gives (.scrubRead k j d x.block x.page x.sector rs) s (fun t =>
        ((t.chan k j).dies[d]).scrub = some { x.lands rs with step := x.step + 1 } ∧ ((t.chan k j).dies[d]).scrubTodo = ((s.chan k j).dies[d]).scrubTodo ∧
        t.desc = s.desc ∧ t.index = s.index)) ∧
      (2 ≤ x.step ∨ (x.lands rs).bad = [] → Gives (.scrubRead k j d x.block x.page x.sector rs) s (fun t => ((t.chan k j).dies[d]).scrub = none ∧
        (x.first < x.step ∨ (x.lands rs).bad ≠ [] ∨ 5 ≤ (x.lands rs).worst → ((s.slice k).media.block j.val d.val x.block).mode ≠ 2 →
          ((t.slice k).media.block j.val d.val x.block).refresh = true) ∧
        t.desc = s.desc ∧ t.index = s.index))) ∧
    (((s.chan k j).dies[d]).scrubDue = 0 → ((s.chan k j).dies[d]).overdue = false → (∃ blk n, blk < 16384 ∧ ((s.slice k).media.block j.val d.val blk).use ∈ [Use.data, .journal, .reserved] ∧
        n < 16 * s.writtenPages k j.val d.val blk ∧ (SMap.getD ((s.chan k j).dies[d]).scrubTodo blk 0).testBit n = true) →
      Gives (.scrubPassLate k j d) s (fun t => ((t.chan k j).dies[d]).scrubLate = satInc ((s.chan k j).dies[d]).scrubLate ∧ ((t.chan k j).dies[d]).overdue = true ∧
        ((t.chan k j).dies[d]).scrubLeft * 2 ^ 32 ≤ ((t.chan k j).dies[d]).quota ∧ t = { s with slices := t.slices }))

/-- R292, R300, R301, R302, R303, R305, R312, R314: at a lap boundary the Pacer takes waiting parameters, decides on sprint and gives each channel that is
up its budget; at a split's end the overrun joins the deficit, unless budgets are suspended. -/
def Obligations.LapsAndSplits : Prop :=
  ∀ (s : State) (k : SliceId) (j : ChanId),
    (∀ n, (s.slice k).pacer.pos = some n → 16 ≤ n → 4 ≤ (s.slice k).pacer.ended → (∀ e ∈ s.desc, e.2.st ≠ .rekeying) → Gives (.lapBoundary k) s (fun t =>
      (t.slice k).pacer.pos = some (n - 16) ∧ (t.slice k).pacer.ended = 0 ∧ (t.slice k).pacer.laps = (s.slice k).pacer.laps + 1 ∧ (t.slice k).pacer.next = none ∧
      (t.slice k).pacer.parm = (s.slice k).pacer.next.getD (s.slice k).pacer.parm ∧ (t.slice k).pacer.sprint = s.sprintNext k ∧ t = { s with slices := t.slices } ∧
      ((s.chan k j).up = true → ∀ nom, nom = 64 * (if s.sprintNext k then (t.slice k).pacer.parm.sprint else (t.slice k).pacer.parm.normal) →
        (t.chan k j).pace.lapBudget = max (nom - (s.chan k j).pace.deficit) (nom / 4) ∧ (t.chan k j).pace.spent = 0 ∧
        (t.chan k j).pace.deficit = (s.chan k j).pace.deficit - (nom - (t.chan k j).pace.lapBudget)) ∧
      ((s.chan k j).up = false → t.chan k j = s.chan k j))) ∧
    (∀ n, (s.slice k).pacer.pos = some n → (s.slice k).pacer.ended < 4 → 4 * (s.slice k).pacer.ended + 4 ≤ n → Gives (.splitEnd k) s (fun t =>
      (t.slice k).pacer.ended = (s.slice k).pacer.ended + 1 ∧ t = { s with slices := t.slices } ∧
      ((s.chan k j).up = true → (t.chan k j).pace.spent = 0 ∧ (t.chan k j).pace.deficit =
        min ((s.chan k j).pace.deficit + (if s.suspended k = true then 0 else (s.chan k j).pace.spent - (s.chan k j).pace.splitBudget)) 65535) ∧
      ((s.chan k j).up = false → t.chan k j = s.chan k j)))

/-- R311, R360, R447, R448, R505, R506, R519, R529: a snapshot point that has been reached and not yet served gives each enabled head its record whole, or drops it and
marks OVERRUN, and during a management restart only counts in SEQUENCE; every
65,536 beats ρ is sampled and the hold-up ceiling recomputed; a slice's SRAM takes the timing set of its band. R510, R512, R513, R517: a thermal sample is kept with the
three before it, sets each slice's throttle and SRAM band, and at 115 °C lowers THERM_L and starts the flush in the same sample. -/
def Obligations.SnapshotsCeilingAndHeat : Prop :=
  (∀ (s : State),
    (∀ b, s.beat.step12 = some b → s.beat.points < (s.beat.events - b) / 65536 → s.rst.mgmtDown = true → exec .telemetrySnapshot s =
      .next { s with beat := { s.beat with points := s.beat.points + 1 }, firm := { s.firm with telSeq := s.firm.telSeq + 1 } }) ∧
    (∀ b p, s.beat.step12 = some b → s.beat.points < (s.beat.events - b) / 65536 → s.rst.mgmtDown = false → s.present p = true → (s.head p).tq.enable = true →
      Gives .telemetrySnapshot s (fun t => t.beat.points = s.beat.points + 1 ∧ t.firm.telSeq = s.firm.telSeq + 1 ∧ ∃ r : List (BitVec 64), r.length = (s.record p).length ∧
        (t.head p).tq = (s.head p).tq.place r ∧ (∀ k, (t.slice k).snap = Snap.reset) ∧ t.desc = s.desc ∧ t.led = s.led)) ∧
    (∀ k, s.working k = true → (s.slice k).rhoAt + 65536 ≤ s.beat.events →
      (s.dirty k ≠ 0 → s.share ≤ 8 * s.dirty k →
        exec (.rhoSample k) s = .next (s.updSlice k (fun x => { x with rhoAt := s.beat.events, rho := ((s.maxCost k, s.dirty k) :: x.rho).take 16 }))) ∧
      (8 * s.dirty k < s.share → exec (.rhoSample k) s = .next (s.updSlice k (fun x => { x with rhoAt := s.beat.events })))) ∧
    (∀ k, s.beat.events < (s.slice k).rhoAt + 65536 → exec (.rhoSample k) s = .next s) ∧
    (s.beat.events < s.power.ceilAt + 65536 → exec .holdupCeilingRecompute s = .next s) ∧
    (¬ 12 ∈ s.rst.todo → s.power.ceilAt + 65536 ≤ s.beat.events → Gives .holdupCeilingRecompute s (fun t => t.power.ceilAt = s.beat.events ∧
      (∀ n, 0 < n → n ≤ s.profCeiling / 64 → s.projFits (n * 64 * 16384) = true → 64 * n ≤ t.power.holdCeil) ∧
      (t.power.belowFloor = true → t.power.holdCeil = 64 ∧ t.health.causes.getLsbD 4 = true) ∧
      (t.power.belowFloor = false → s.projFits (t.power.holdCeil * 16384) = true ∧ t.health.causes.getLsbD 4 = false) ∧ t.desc = s.desc)) ∧
    (∀ k, exec (.sramTimingSetChange k) s = .next (s.updSlice k (fun x => { x with sramSet := x.sramBand })))) ∧
  (∀ (s : State) (readings : List (Nat × Int)) (svc : Int), s.power.flush ≠ .off →
    Gives (.thermalSample readings svc) s (fun t => t.power.svcSamples = (svc :: s.power.svcSamples).take 4 ∧ t.desc = s.desc ∧ t.keys = s.keys ∧
      (∀ k v, s.present k = true → readings.find? (fun r => r.1 = k.val) = some (k.val, v) → (t.slice k).samples = (v :: (s.slice k).samples).take 4) ∧
      (∀ k, readings.find? (fun r => r.1 = k.val) = none → (t.slice k).samples = (s.slice k).samples ∧ (t.slice k).pct = (s.slice k).pct) ∧
      (s.power.thermShut = false → ((s.slicesSample readings).serviceSample svc).tooHot ≠ none → t.power.thermShut = true ∧ t.power.thermL = false ∧ t.power.thermAt = s.beat.events ∧
        t.power.thermReport = ((s.slicesSample readings).serviceSample svc).tooHot ∧ (s.power.flush = .idle → s.powered = true → t.power.flush = .window ∧ t.power.thermal = true)) ∧
      (((s.slicesSample readings).serviceSample svc).tooHot = none → t.power.thermShut = s.power.thermShut ∧ t.power.thermL = s.power.thermL ∧ t.power.flush = s.power.flush)))

/-- R178, R181, R182, R183, R184, R185, R188: a channel's upkeep: a temperature readout that passes its CRC-8 sets the die's temperature and band; one that
fails it is asked for again, and the third, or one that is not valid, is an interval without a reading, of which the second in a row puts the die in T4;
tracking is asked for every 65,536 beats and, once its PAT_READs are served, moves each centre by 1/64 UI at most; a retrain takes the window it found when it
passes, or, at the third failure, marks the channel absent. Which die of a group tracking addresses, and that every attempt of a retrain starts at step 7, is the
model's choice (log entries 83 and 81). -/
def Obligations.ChannelsAreTended : Prop :=
  ∀ (s : State) (k : SliceId) (j : ChanId), s.present k = true →
    (∀ (d : DieId) (reply : List Byte) (crc : Byte), ((s.chan k j).dies[d]).present = true → ((s.chan k j).dies[d]).failed = false →
      (∀ v, goodReply 8 (reply ++ [crc]) = true → tempOf (reply ++ [crc]) = some v → Gives (.tempReadout k j d reply crc) s (fun t => ((t.chan k j).dies[d]).temp = v ∧
        ((t.chan k j).dies[d]).valid = true ∧ ((t.chan k j).dies[d]).tempFails = 0 ∧ ((t.chan k j).dies[d]).high = max ((s.chan k j).dies[d]).high v ∧
        ((t.chan k j).dies[d]).band = tempBand v ∧ ((t.chan k j).dies[d]).lostInRow = 0 ∧ t = { s with slices := t.slices, out := t.out })) ∧
      (goodReply 8 (reply ++ [crc]) = false → ((s.chan k j).dies[d]).tempTries + 1 < 3 → Gives (.tempReadout k j d reply crc) s (fun t =>
        ((t.chan k j).dies[d]).tempTries = ((s.chan k j).dies[d]).tempTries + 1 ∧ ((t.chan k j).dies[d]).temp = ((s.chan k j).dies[d]).temp ∧
        (t.chan k j).arb.queue = (s.chan k j).arb.queue ++ [ChReq.plain .mx .readTemp d 0 0 0 0 0 (.temp d.val) 0 true] ∧ t = { s with slices := t.slices })) ∧
      ((goodReply 8 (reply ++ [crc]) = true ∧ tempOf (reply ++ [crc]) = none) ∨ (goodReply 8 (reply ++ [crc]) = false ∧ 2 ≤ ((s.chan k j).dies[d]).tempTries) →
        Gives (.tempReadout k j d reply crc) s (fun t => ((t.chan k j).dies[d]).tempFails = ((s.chan k j).dies[d]).tempFails + 1 ∧
          ((t.chan k j).dies[d]).temp = ((s.chan k j).dies[d]).temp ∧
          ((t.chan k j).dies[d]).band = (if 1 ≤ ((s.chan k j).dies[d]).tempFails then 4 else ((s.chan k j).dies[d]).band) ∧
          t = { s with slices := t.slices, out := t.out }))) ∧
    ((s.chan k j).up = true → (s.chan k j).retraining = false → ∀ g0 g1 r0 r1 : Int,
      ((s.chan k j).tracking = false → (s.chan k j).trackAt + 65536 ≤ s.beat.events → Gives (.channelTracking k ⟨j, g0, g1, r0, r1⟩) s (fun t =>
        (t.chan k j).trackAt = s.beat.events ∧ (t.chan k j).tracking = true ∧ (t.chan k j).gate = (s.chan k j).gate ∧ (t.chan k j).rx = (s.chan k j).rx ∧
        (t.chan k j).arb.queue = (s.chan k j).arb.queue ++ ([0, 1].filterMap ((s.chan k j).groupDie (s.chanDies k j))).map (fun d =>
          ChReq.plain .mx .tracking d 0 0 0 0 0 .track 0 true) ∧ t.desc = s.desc ∧ t.led = s.led)) ∧
      ((s.chan k j).tracking = true → (s.chan k j).workDone .track = true → exec (.channelTracking k ⟨j, g0, g1, r0, r1⟩) s = .next (s.updChan k j (fun c => { c with
        tracking := false
        gate := #v[c.gate[0] + max (-1) (min 1 (g0 - c.gate[0])), c.gate[1] + max (-1) (min 1 (g1 - c.gate[1]))]
        rx := #v[c.rx[0] + max (-1) (min 1 (r0 - c.rx[0])), c.rx[1] + max (-1) (min 1 (r1 - c.rx[1]))] })))) ∧
    ((s.chan k j).up = true → s.channelRail k = true → ∀ (a : TrainTry) (temps stats : List (Nat × List (List Byte))) (ok : Bool),
      ok = tryPasses a (s.groupDies k j).length (s.chan k j).live false →
      (ok = true → (∀ d : DieId, ((s.chan k j).dies[d]).stWait = false) → (∀ x ∈ stats, x.2.length < 3) → Gives (.channelRetrain k j a ⟨temps, stats⟩) s (fun t =>
        (t.chan k j).retraining = false ∧ (t.chan k j).retrainTries = 0 ∧ (t.chan k j).window = narrowest (s.chan k j).delays.caWindow (a.rx ++ a.tx) ∧
        (t.chan k j).alert = false ∧ (t.chan k j).up = true ∧
        (∀ d : DieId, ((s.chan k j).dies[d]).present = true → ((s.chan k j).dies[d]).failed = false → ((t.chan k j).dies[d]).trainTemp = ((t.chan k j).dies[d]).temp) ∧
        t.desc = s.desc ∧ t.led = s.led)) ∧
      (ok = false → (s.chan k j).retraining = true → (s.chan k j).retrainTries < 2 → Gives (.channelRetrain k j a ⟨temps, stats⟩) s (fun t =>
        (t.chan k j).retrainTries = (s.chan k j).retrainTries + 1 ∧ (t.chan k j).retraining = true ∧ (t.chan k j).up = true ∧
        t = { s with slices := t.slices, out := t.out })) ∧
      (ok = false → (s.chan k j).retraining = true → (s.chan k j).retrainTries = 2 → (∀ x ∈ s.mediaRec.absent, x.mc ≠ 16 * k.val + j.val) →
        Gives (.channelRetrain k j a ⟨temps, stats⟩) s (fun t => (t.chan k j).up = false ∧ (∃ x ∈ t.mediaRec.absent, x.mc = 16 * k.val + j.val) ∧ t.keys = s.keys)))

/-- R178, R186, R187, R188, R189: a low ALERT_L makes the device read STATUS of every present die and, once that is read, act on the causes that a good reply
reports; a die whose three replies all fail their CRC-8 fails; a line stuck low retrains the channel; a lost burst is asked for again once, a foreground read's when the
repeat can still end within the time left, and the second in a row fails its die. -/
def Obligations.AlertsAndLostBursts : Prop :=
  ∀ (s : State) (k : SliceId) (j : ChanId) (d : DieId), s.present k = true → (s.chan k j).up = true → ((s.chan k j).dies[d]).present = true → ((s.chan k j).dies[d]).failed = false →
    (∀ ns sts, 5 ≤ ns → (s.chan k j).alerting = false → Gives (.alertAsserted k j ns sts) s (fun t => (t.chan k j).alert = true ∧
      (t.chan k j).arb.queue = (s.chan k j).arb.queue ++ (s.chan k j).live.map (fun x => ChReq.plain .mx .status x 0 0 0 0 0 (.alert x.val) 0 true) ∧
      (∀ x ∈ (s.chan k j).live, ((t.chan k j).dies[x]).stWait = true) ∧ t.desc = s.desc ∧ t.led = s.led)) ∧
    (∀ ns (r : List Byte) (left : Nat), 5 ≤ ns → ((s.chan k j).dies[d]).stWait = true → (s.chan k j).workDone (.alert d.val) = true →
      (goodReply 16 r = true → (DieStatus.ofBytes r).causes = 0 → Gives (.alertAsserted k j ns [⟨d, r, left⟩]) s (fun t => ((t.chan k j).dies[d]).stWait = false ∧
        ((t.chan k j).dies[d]).lostInRow = 0 ∧ (t.chan k j).arb.queue = (s.chan k j).arb.queue ∧ .mx ∉ (t.chan k j).pace.opOpen ∧ t.desc = s.desc ∧ t.led = s.led)) ∧
      (goodReply 16 r = true → (DieStatus.ofBytes r).causes = 0x40 → Gives (.alertAsserted k j ns [⟨d, r, left⟩]) s (fun t => ((t.chan k j).dies[d]).stWait = false ∧
        (t.chan k j).arb.queue = (s.chan k j).arb.queue ++ [ChReq.plain .mx .readTemp d 0 0 0 0 0 (.temp d.val) 0 true,
          ChReq.plain .mx .clearAlert d 0 0 0x40 0 0 (.alert d.val) 0 true] ∧ t.desc = s.desc ∧ t.led = s.led)) ∧
      (goodReply 16 r = false → ((s.chan k j).dies[d]).stTries + 1 < 3 → Gives (.alertAsserted k j ns [⟨d, r, left⟩]) s (fun t =>
        ((t.chan k j).dies[d]).stTries = ((s.chan k j).dies[d]).stTries + 1 ∧ ((t.chan k j).dies[d]).failed = false ∧
        (t.chan k j).arb.queue = (s.chan k j).arb.queue ++ [ChReq.plain .mx .status d 0 0 0 0 0 (.alert d.val) 0 true] ∧ t.desc = s.desc ∧ t.led = s.led)) ∧
      (goodReply 16 r = false → 2 ≤ ((s.chan k j).dies[d]).stTries → (s.slice k).media.deadDies.contains (j.val * 8 + d.val) = false →
        Gives (.alertAsserted k j ns [⟨d, r, left⟩]) s (fun t =>
          ((t.chan k j).dies[d]).failed = true ∧ (t.slice k).media.deadDies.contains (j.val * 8 + d.val) = true ∧ t.keys = s.keys))) ∧
    (∀ us, 10 ≤ us → (s.chan k j).alert = true → (s.chan k j).alerting = false → Gives (.alertStuckTimeout k j us) s (fun t =>
      (t.chan k j).retraining = true ∧ t = { s with slices := t.slices })) ∧
    (∀ left u, ((s.chan k j).dies[d]).lostInRow = 0 → recentBeats (s.chan k j).lostBeats s.beat.events = [] → (s.chan k j).awaits d = some u →
      (∀ rid, u.req.work = .read rid → ∃ rd, s.readOf k rid = some rd ∧
        ∀ top q, s.readFor k rd = some (top, q) → u.req.again (s.oneBitReq k j u.req) (q.port != k) ≤ left) →
      Gives (.burstLost k j ⟨d, left⟩) s (fun t => ((t.chan k j).dies[d]).lostInRow = 1 ∧ ((t.chan k j).dies[d]).failed = false ∧
        (t.chan k j).arb.queue = u.req :: (s.chan k j).arb.queue ∧ (t.chan k j).retraining = (s.chan k j).retraining ∧ t.desc = s.desc ∧ t.led = s.led ∧ t.keys = s.keys)) ∧
    (∀ left, 1 ≤ ((s.chan k j).dies[d]).lostInRow → (s.slice k).media.deadDies.contains (j.val * 8 + d.val) = false → Gives (.burstLost k j ⟨d, left⟩) s (fun t =>
      ((t.chan k j).dies[d]).failed = true ∧ (t.slice k).media.deadDies.contains (j.val * 8 + d.val) = true ∧ t.keys = s.keys))

/-- R193, R195, R199: the arbiter's decision changes only who is chosen: a ready foreground read wins unless FR took the last grant, a displaced
choice goes back to the queue, and without a candidate nothing changes. -/
def Obligations.TheArbiterChooses : Prop :=
  ∀ (s : State) (k : SliceId) (j : ChanId),
    ∀ (since : Nat) (q : List ChReq) (s' : State), q = (s.chan k j).arb.chosen.toList ++ (s.chan k j).arb.queue →
    s' = s.updChan k j (fun c => { c with arb := { c.arb with readied := c.readied q since } }) →
    (s'.choose k j q since = none → exec (.arbitrationDecision k ⟨j, since⟩) s = .next s') ∧
    (∀ w, s'.choose k j q since = some w → Gives (.arbitrationDecision k ⟨j, since⟩) s (fun t =>
      (t.chan k j).arb.chosen = some w ∧ (t.chan k j).arb.queue = removeReq q w ∧
      (t.chan k j).arb.credits = (s.chan k j).arb.credits ∧ (t.chan k j).arb.owner = (s.chan k j).arb.owner ∧ (∀ q, q ≠ k → t.slice q = s.slice q) ∧ t = { s with slices := t.slices })) ∧
    ((s.chan k j).arb.lastGrant ≠ some .fr → (∃ r ∈ q, r.rq = .fr ∧ (s.chan k j).ready r since = true) →
      Gives (.arbitrationDecision k ⟨j, since⟩) s (fun t => ∃ w, (t.chan k j).arb.chosen = some w ∧ w.rq = .fr ∧ (s.chan k j).ready w since = true ∧ w ∈ q))

/-- R194, R198, R201, R202, R207, R210, R294, R297: a chosen request takes effect once the owner has issued its last slot, its first burst cannot meet another,
and no retry point is open: it becomes the owner with its sequence's hold and the hold limit in force; the tenures before it keep their last bursts,
its slots are charged to the split in force, and no credit moves until a tenure ends. -/
def Obligations.GrantsTakeEffect : Prop :=
  ∀ (s : State) (k : SliceId) (j : ChanId) (wait since now : Nat) (r r' : ChReq), (s.chan k j).arb.chosen = some r →
    r' = (if s.lateFor k r wait ((s.chan k j).pauseFor r) then { r with ts := 31 } else r) → s.grantable k j r' ((s.chan k j).pauseFor r) since = true →
    Gives (.grantEffect k j ⟨wait, since, now⟩) s (fun t => (t.chan k j).arb.chosen = none ∧
      (t.chan k j).arb.tail = ((s.chan k j).arb.tail ++ (s.chan k j).arb.owner.toList).map (fun u => { u with lead := u.lead + since }) ∧
      (∃ tn, (t.chan k j).arb.owner = some tn ∧ tn.req = r' ∧ tn.paused = (s.chan k j).pauseFor r ∧ tn.hold = r'.sq.hold + (if (s.chan k j).pauseFor r then 10 else 0) ∧
        tn.held = 0 ∧ tn.locked = (r'.sq == .pageFinish) ∧ tn.lead = 0 ∧ tn.limit = (s.chan k j).arb.holdLimit ∧ tn.retry = (r'.rq == .fr) ∧ tn.discard = false ∧ tn.cut = false ∧
        tn.paid = s.paidFor k r' (min (ceilDiv tn.hold 10) tn.limit) ∧
        (r.rq ≠ .fr → s.suspended k = false → (t.chan k j).pace.spent = (s.chan k j).pace.spent + min (ceilDiv tn.hold 10) tn.limit)) ∧
      (t.chan k j).arb.lastGrant = some r.rq ∧ ((t.chan k j).arb.stats[r.rq.ix]).grants = ((s.chan k j).arb.stats[r.rq.ix]).grants + 1 ∧
      (t.chan k j).arb.queue = (s.chan k j).arb.queue ∧ (t.chan k j).arb.credits = (s.chan k j).arb.credits ∧
      (∀ op, r.op = some op → (SMap.get? ((t.chan k j).dies[r.die]).banks (r.block % 16)).map (·.op) = some op) ∧
      (t.slice k).front = (s.slice k).front ∧ t = { s with slices := t.slices, out := t.out })

/-- R188, R196, R198, R202, R203, R204, R205, R206: the end of the oldest tenure debits its requester's credit by its hold, never below −4,096; the hold limit under
which the tenure was granted cuts it off with the debit of the limit, sends ABORT, or keeps it where the channel can issue nothing, and gives its sequence back; a
tenure so cut off, whose die-driven burst goes on, ends without a second debit; a fault of a lock's owner cuts its locked tenure off, and its fold starts again; an
unlocked tenure of such an owner runs to its end and its result is discarded. That a discarded tenure's request is raised again is the model's choice (log entry
79). -/
def Obligations.TenuresEnd : Prop :=
  (∀ (s : State) (k : SliceId) (j : ChanId) (tn : Tenure) (a : Arb), (s.chan k j).arb.pop = some (tn, a) →
    (tn.cut = false → Gives (.tenureEnd k j) s (fun t => (t.chan k j).arb.owner = a.owner ∧ (t.chan k j).arb.tail = a.tail ∧
      (t.chan k j).arb.credits[tn.req.rq.ix] = max ((s.chan k j).arb.credits[tn.req.rq.ix] - ((ceilDiv tn.hold 10 + ceilDiv tn.held 10 : Nat) : Int)) (-4096) ∧
      (∀ i : Fin 6, i ≠ tn.req.rq.ix → (t.chan k j).arb.credits[i] = (s.chan k j).arb.credits[i]) ∧
      (t.chan k j).arb.queue = (if tn.discard then tn.req :: (s.chan k j).arb.queue else (s.chan k j).arb.queue) ∧ t = { s with slices := t.slices, out := t.out })) ∧
    (tn.cut = true → Gives (.tenureEnd k j) s (fun t => (t.chan k j).arb = a ∧ t = { s with slices := t.slices, out := t.out }))) ∧
  (∀ (s : State) (k : SliceId) (j : ChanId) (tn : Tenure), (s.chan k j).arb.owner = some tn →
    (tn.req.sq.starts = false → tn.req.sq ≠ .progLoad → SMap.get? ((s.chan k j).dies[tn.req.die]).banks (tn.req.block % 16) = none →
      (∀ f ∈ (s.slice k).media.foldSet j.val, f.die = tn.req.die → f.blk % 16 = tn.req.block % 16 → f.staged = []) →
      ((s.chan k j).dies[tn.req.die]).failed = false →
      Gives (.holdLimitCutoff k j) s (fun t => (t.chan k j).arb.owner = none ∧ (t.chan k j).arb.queue = tn.req :: (s.chan k j).arb.queue ∧
        (t.chan k j).arb.credits[tn.req.rq.ix] = max ((s.chan k j).arb.credits[tn.req.rq.ix] - ((tn.limit + ceilDiv tn.held 10 : Nat) : Int)) (-4096) ∧
        ((tn.req.latency false).isSome = true → ∃ u ∈ (t.chan k j).arb.tail, u.req = tn.req ∧ u.cut = true) ∧
        (s.canIssue k j = true → t.out.head? = some (.slot k j (chipSelect (s.chanDies k j) tn.req.die.val) (slotBank 0x0B tn.req.die.val (tn.req.block % 16)))) ∧
        (s.canIssue k j = false → (t.chan k j).aborts = (s.chan k j).aborts ++ [(tn.req.die.val, tn.req.block % 16)]) ∧
        t.desc = s.desc ∧ t.led = s.led))) ∧
  (∀ (s : State) (k : SliceId) (f : OwnerFault) (mine : Tenure → Bool), mine = (fun t => t.req.rq.ix == f.rq && !t.cut && t.locked) →
    (∀ tn, (s.chan k f.chan).tenures.filter mine = [tn] → ((s.chan k f.chan).dies[tn.req.die]).failed = false → s.canIssue k f.chan = true →
      Gives (.lockOwnerFault k f) s (fun t => (t.chan k f.chan).tenures.filter mine = [] ∧
        (t.chan k f.chan).arb.lockAbandoned = satInc (s.chan k f.chan).arb.lockAbandoned ∧
        (∀ x b pg m, SMap.get? ((s.chan k f.chan).dies[tn.req.die]).banks (tn.req.block % 16) = some x → x.op = .program b pg →
          ((s.slice k).media.foldSet f.chan.val).find? (fun m => m.die == tn.req.die && m.blk == b) = some m → (t.slice k).media.urgent.contains m.key = true) ∧
        t.desc = s.desc ∧ t.keys = s.keys)) ∧
    ((s.chan k f.chan).tenures.filter mine = [] → exec (.lockOwnerFault k f) s = .next (s.updChan k f.chan (·.mapTenures (fun t =>
      if t.req.rq.ix == f.rq && !t.cut && !t.locked then { t with discard := true } else t)))))

/-- R164, R188, R207, R208, R237: a paused bank whose last read has begun its burst is resumed when no foreground read needs it, or after 3 µs of pauses within 4 µs
whether or not one does, for the run window of its operation; while the read still holds it the resume is due; none is sent while the channel retrains; the end of the operation frees the bank, and a completed reset makes its block ready. -/
def Obligations.BanksResumeAndComplete : Prop :=
  ∀ (s : State) (k : SliceId) (j : ChanId) (d : DieId) (b : BankId) (x : BankSt), SMap.get? ((s.chan k j).dies[d]).banks b.val = some x →
    (∀ (now : Nat) (s' : State), s' = s.updChan k j (·.tick now) →
      (x.paused = true → (s.chan k j).talks d = true → (s.chan k j).readHolds d b.val = false →
        ((s.chan k j).frReady d b.val = false → exec (.bankResume k j d ⟨b, now⟩) s =
          .next ((s'.setBank k j d b.val (some (x.resume (s'.chan k j).now false))).sendSlot k j d (slotBank 0x0A d.val b.val) none)) ∧
        (12000 ≤ x.pausedFor (s'.chan k j).now → exec (.runWindowStart k j d b now) s =
          .next ((s'.setBank k j d b.val (some (x.resume (s'.chan k j).now true))).sendSlot k j d (slotBank 0x0A d.val b.val) none))) ∧
      (x.paused = true → (s.chan k j).talks d = true → (s.chan k j).readHolds d b.val = true → exec (.bankResume k j d ⟨b, now⟩) s = .next s' ∧
        (12000 ≤ x.pausedFor (s'.chan k j).now → exec (.runWindowStart k j d b now) s = .next (s'.setBank k j d b.val (some { x with due := true })))) ∧
      ((s.chan k j).talks d = false → exec (.bankResume k j d ⟨b, now⟩) s = .next s' ∧ exec (.runWindowStart k j d b now) s = .next s') ∧
      (x.window = true → x.since + x.op.window ≤ (s'.chan k j).now → exec (.runWindowEnd k j d b now) s =
        .next ((s'.markWaited k j d b.val).setBank k j d b.val (some { x with window := false })))) ∧
    (x.paused = false → (∀ n, x.op = .write n → exec (.arrayOperationComplete k j d b) s = .next (s.setBank k j d b.val none)) ∧
      (∀ blk one, x.op = .reset blk one → blk % 16 = b.val → blk < 16384 → ((s.slice k).media.block j.val d.val blk).use ≠ .retired →
        Gives (.arrayOperationComplete k j d b) s (fun t => ((t.slice k).media.block j.val d.val blk).use = .ready ∧
          ((t.slice k).media.block j.val d.val blk).mode = (if one then 2 else 1) ∧ ((t.slice k).media.block j.val d.val blk).reads = 0 ∧
          ((t.slice k).media.block j.val d.val blk).resets = ((s.slice k).media.block j.val d.val blk).resets + 1 ∧
          (t.slice k).media.overlay = (s.slice k).media.overlay ∧ (t.slice k).media.bmap = (s.slice k).media.bmap ∧ t = { s with slices := t.slices })))

/-- R136, R206, R227, R229, R230, R252, R331: the journal writer gives a page the next head page and SEQ and leaves the overlay as it was; the commit sets
the page's entry and clears from the poison list the lines that the drain took up poisoned; a page whose write failed is written again elsewhere, and its block takes
no further page; an aborted one is written again; a page whose overlay set is full waits and its set is folded first, the requests raised staying as they are but
for those that become mandatory; a page that no block can take is marked POISON. The first three hold where the front store reads sound for the page, and the second
once the reads of its lines have ended. -/
def Obligations.PagesAreDrained : Prop :=
  ∀ (s : State) (k : SliceId),
    (∀ pk (r : DrainRead), (s.slice k).st = .working → s.readForDrain k pk r = (true, s) → s.pageNeeds k pk ≠ [] →
      ((s.slice k).media.ovRoom pk = false → ((s.slice k).media.entry (pk / 1024)).st ≠ .dead → s.noPlace k pk = false → Gives (.journalDrain k pk r) s (fun t =>
        pk ∈ (t.slice k).media.waiting ∧ (∀ key ∈ (s.slice k).media.urgent, key ∈ (t.slice k).media.urgent) ∧
        (∀ e ∈ (s.slice k).media.overlay, ovSet e.1 = ovSet pk → e.1 / 1024 ∈ (t.slice k).media.urgent) ∧
        (t.slice k).front = (s.slice k).front ∧ t.desc = s.desc ∧ t.keys = s.keys ∧ t.led = s.led ∧
        (∀ j, (t.chan k j).dies = (s.chan k j).dies ∧ (t.chan k j).arb.credits = (s.chan k j).arb.credits ∧
          (t.chan k j).arb.queue.map (fun r => { r with mandatory := true }) = (s.chan k j).arb.queue.map (fun r => { r with mandatory := true })))) ∧
      (∀ cd b, cd = pk / 2 ^ 27 % 16 * 8 + pk / 2 ^ 24 % 8 → s.canDrain k pk = true → s.drainTurn k pk = true → s.rekeyPage k pk = none →
        (s.slice k).media.ovRoom pk = true → ((s.slice k).media.entry (pk / 1024)).st ≠ .dead → (∀ a ∈ s.mediaRec.absent, a.mc ≠ 16 * k.val + pk / 2 ^ 27 % 16) →
        (∀ n ∈ s.pageNeeds k pk, treeOf n.2 = none) → s.pageSeal k pk = none → ((s.slice k).media.journal cd).ring.getLast? = some b → ((s.slice k).media.journal cd).headPage < 512 →
        (∀ i c, i < 64 → s.lineOpen k pk i ((s.slice k).media.resolve pk (i / 4) false) r.olds c = false) →
        Gives (.journalDrain k pk r) s (fun t => (t.slice k).media.seq = (s.slice k).media.seq + 1 ∧ (t.slice k).media.overlay = (s.slice k).media.overlay ∧
          ((t.slice k).media.journal cd).headPage = ((s.slice k).media.journal cd).headPage + 1 ∧
          (∃ dr, (t.slice k).media.drains = (s.slice k).media.drains ++ [dr] ∧ dr.key = pk ∧ dr.jblock = b ∧ dr.jpage = ((s.slice k).media.journal cd).headPage ∧
            dr.seq = (s.slice k).media.seq + 1 ∧ dr.gen = ((s.slice k).media.entry (pk / 1024)).drainGen ∧ dr.lines = lineMask ((s.pageNeeds k pk).map (·.1))) ∧
          ((s.slice k).tree.unver.length ≤ 192 → t.desc = s.desc) ∧ t.keys = s.keys)) ∧
      (pk < 2 ^ 31 → s.canDrain k pk = true → s.drainTurn k pk = true → s.rekeyPage k pk = none → (s.slice k).media.ovRoom pk = true → ((s.slice k).media.entry (pk / 1024)).st ≠ .dead →
        (∀ a ∈ s.mediaRec.absent, a.mc ≠ 16 * k.val + pk / 2 ^ 27 % 16) → s.noPlace k pk = true → Gives (.journalDrain k pk r) s (fun t =>
          (∃ e, SMap.get? (t.slice k).media.overlay pk = some e ∧ e.kind = .poison ∧ e.sectors = 0) ∧ t.desc = s.desc ∧ t.keys = s.keys ∧
          ∀ p, p ≠ pk → SMap.get? (t.slice k).media.overlay p = SMap.get? (s.slice k).media.overlay p))) ∧
    (∀ (j : ChanId) (d : DieId) dr, (s.slice k).media.drainOn j.val d.val = some dr →
      (dr.aborted = false → SMap.get? ((s.chan k j).dies[d]).banks (dr.jblock % 16) = none → (s.chan k j).workDone (.drain dr.key) = true → (s.slice k).heldReqs = [] → Gives (.drainCommit k j d) s (fun t =>
        SMap.get? (t.slice k).media.overlay dr.key = some ⟨dr.jblock, dr.jpage, dr.sectors, dr.kind, false, dr.gen, dr.seq⟩ ∧
        (∀ p, p ≠ dr.key → SMap.get? (t.slice k).media.overlay p = SMap.get? (s.slice k).media.overlay p) ∧ (∀ x ∈ (t.slice k).media.drains, x.key ≠ dr.key) ∧
        (∀ i l, i < 64 → dr.lines.getLsbD i = true → dr.psn.getLsbD i = true → s.lineOfPage k dr.key i = some l → (t.slice k).front.poison.contains l = false) ∧ t.desc = s.desc ∧ t.keys = s.keys)) ∧
      (dr.aborted = false → ((s.slice k).media.journal (j.val * 8 + d.val)).ring.getLast? = some dr.jblock → ((s.slice k).media.journal (j.val * 8 + d.val)).ahead ≠ [] →
        Gives (.journalWriteFail k j d) s (fun t =>
          (∃ x ∈ (t.slice k).media.drains, x.key = dr.key ∧ x.seq = (s.slice k).media.seq + 1 ∧ x.rewrite = true ∧ x.lines = dr.lines ∧ x.jpage = 0 ∧
            x.jblock ∈ ((s.slice k).media.journal (j.val * 8 + d.val)).ahead) ∧
          dr.jblock ∈ ((t.slice k).media.journal (j.val * 8 + d.val)).failed ∧ (t.slice k).media.overlay = (s.slice k).media.overlay ∧ t = { s with slices := t.slices })) ∧
      (∀ b, dr.aborted = true → ((s.slice k).media.journal (j.val * 8 + d.val)).ring.getLast? = some b → ((s.slice k).media.journal (j.val * 8 + d.val)).headPage < 512 →
        Gives (.journalWriteFail k j d) s (fun t =>
          (∃ x ∈ (t.slice k).media.drains, x.key = dr.key ∧ x.seq = (s.slice k).media.seq + 1 ∧ x.rewrite = true ∧ x.aborted = false ∧ x.lines = dr.lines ∧ x.jblock = b ∧
            x.jpage = ((s.slice k).media.journal (j.val * 8 + d.val)).headPage) ∧
          ((t.slice k).media.journal (j.val * 8 + d.val)).failed = ((s.slice k).media.journal (j.val * 8 + d.val)).failed ∧
          (t.slice k).media.overlay = (s.slice k).media.overlay ∧ t = { s with slices := t.slices })))

/-- R176, R224, R235, R236, R237, R238, R239: a fold captures its block's entries and takes its generation, programs its pages in order under FD, reads
each row back and verifies it, and commits by mapping the new block and clearing exactly the captured entries; a block that fails verification leaves the set and is folded
again first. -/
def Obligations.FoldsRun : Prop :=
  ∀ (s : State) (k : SliceId) (j : ChanId),
    (∀ key n, (s.slice k).st = .working → key / 2 ^ 17 = j.val → (s.slice k).media.deadDies.contains (key / 2 ^ 14) = false → (s.chan k j).up = true → SMap.getD (s.slice k).media.health j.val 0 ≠ 4 →
      ((s.slice k).media.entry key).folding = false → ((s.slice k).media.entry key).st ≠ .dead → (s.slice k).media.foldTurn key = true → (∀ d ∈ (s.slice k).media.drains, d.key / 1024 ≠ key) →
      (∀ f ∈ (s.slice k).media.foldSet j.val, f.die.val ≠ key / 2 ^ 14 % 8 ∧ f.page = 0) →
      (s.slice k).media.allocate j.val (key / 2 ^ 14 % 8) (key / 2 ^ 10 % 16) 1 ((s.slice k).media.refresh.contains (key, true)) = some n → Gives (.foldOpen k key) s (fun t =>
        (∃ f, (t.slice k).media.foldSet j.val = (s.slice k).media.foldSet j.val ++ [f] ∧ f.key = key ∧ f.blk = n ∧ f.page = 0 ∧ f.verified = 0 ∧
          f.gen = ((s.slice k).media.entry key).drainGen ∧ f.seq = (s.slice k).media.seq + 1) ∧
        (t.slice k).media.entry key = { (s.slice k).media.entry key with folding := true, drainGen := ((s.slice k).media.entry key).drainGen + 1 } ∧
        (∀ o ∈ (t.slice k).media.overlay, o.1 / 1024 = key → o.2.captured = true) ∧ t = { s with slices := t.slices })) ∧
    (∀ (d : DieId) f olds, SMap.getD (s.slice k).media.health j.val 0 ≠ 4 → ((s.slice k).media.foldSet j.val).find? (fun f => f.die == d) = some f → f.page < 1024 → (∀ g ∈ (s.slice k).media.foldSet j.val, f.page ≤ g.page ∧ (g.page = f.page → (s.chan k j).foldIdle g = true)) →
      f.page < f.verified + 96 → s.pageSeal k (f.key * 1024 + f.page) = none →
      (∀ i, i < 64 → s.lineOpen k (f.key * 1024 + f.page) i ((s.slice k).media.resolve (f.key * 1024 + f.page) (i / 4) true) olds false = false) → Gives (.foldPageProgram k j d olds) s (fun t =>
        (∃ g ∈ (t.slice k).media.foldSet j.val, g.die = d ∧ g.key = f.key ∧ g.page = f.page + 1 ∧
          (t.chan k j).arb.queue.drop ((t.chan k j).arb.queue.length - 16) = g.loads (s.foldMandatory k f.key)) ∧
        (∃ reads loads : List ChReq, (t.chan k j).arb.queue = (s.chan k j).arb.queue ++ reads ++ loads ∧ loads.length = 16 ∧
          ∀ r ∈ loads, r.rq = .fd ∧ r.die = d ∧ r.block = f.blk ∧ r.page = f.page ∧ r.work = .fold f.key) ∧
        (t.slice k).media.overlay = (s.slice k).media.overlay ∧ (t.slice k).media.bmap = (s.slice k).media.bmap ∧
        ((s.slice k).tree.unver.length ≤ 192 → t.desc = s.desc) ∧ t.keys = s.keys)) ∧
    (∀ row pages, row < 1024 → SMap.getD (s.slice k).media.health j.val 0 ≠ 4 → (s.slice k).media.foldSet j.val ≠ [] → (∀ f ∈ (s.slice k).media.foldSet j.val, f.verified = row) →
      ((∀ f ∈ (s.slice k).media.foldSet j.val, f.asked = false ∧ (row + 3 ≤ f.page ∨ min 1024 (row + 2) ≤ f.page ∧ (s.chan k j).foldIdle f = true)) →
        Gives (.foldRowVerify k j row pages) s (fun t => (∀ f ∈ (t.slice k).media.foldSet j.val, f.asked = true ∧ f.verified = row) ∧
          ((t.slice k).media.foldSet j.val).map (·.key) = ((s.slice k).media.foldSet j.val).map (·.key) ∧
          (∀ f ∈ (s.slice k).media.foldSet j.val, ∃ r ∈ (t.chan k j).arb.queue, r.sq = .readTag ∧ r.rq = .fd ∧ r.die = f.die ∧ r.block = f.blk ∧ r.page = row) ∧
          (t.slice k).media.overlay = (s.slice k).media.overlay ∧ (∀ r, (t.slice k).media.rowParity j.val r = (s.slice k).media.rowParity j.val r) ∧ t = { s with slices := t.slices })) ∧
      ((∀ f ∈ (s.slice k).media.foldSet j.val, f.asked = true ∧ (s.chan k j).workDone (.fold f.key) = true) →
        ((∀ f ∈ (s.slice k).media.foldSet j.val, (pages.find? (fun p => p.1 == f.die)).any (fun p => pagePasses 0xFFFF p.2) = true) →
          Gives (.foldRowVerify k j row pages) s (fun t => (∀ f ∈ (t.slice k).media.foldSet j.val, f.verified = row + 1 ∧ f.asked = false) ∧
            ((t.slice k).media.foldSet j.val).map (·.key) = ((s.slice k).media.foldSet j.val).map (·.key) ∧ (t.slice k).media.rowParity j.val row = none ∧
            (t.slice k).media.overlay = (s.slice k).media.overlay ∧ (t.slice k).media.bmap = (s.slice k).media.bmap)) ∧
        ∀ f ∈ (s.slice k).media.foldSet j.val, (pages.find? (fun p => p.1 == f.die)).any (fun p => pagePasses 0xFFFF p.2) = false →
          Gives (.foldRowVerify k j row pages) s (fun t =>
            (∀ g ∈ (t.slice k).media.foldSet j.val, g.key ≠ f.key) ∧ (t.slice k).media.urgent.contains f.key = true ∧
            (∀ o ∈ (t.slice k).media.overlay, o.1 / 1024 = f.key → o.2.captured = false)))) ∧
    (∀ (d : DieId) f, ((s.slice k).media.foldSet j.val).find? (fun f => f.die == d) = some f → f.verified = 1024 → SMap.getD (s.slice k).media.health j.val 0 ≠ 4 → f.old ≠ some f.blk →
      (s.slice k).media.deadDies.contains (f.key / 2 ^ 14) = false → Gives (.foldCommit k j d) s (fun t =>
        (t.slice k).media.entry f.key = { (s.slice k).media.entry f.key with phys := f.blk, blockGen := f.gen, st := .mapped, folding := false } ∧
        (t.slice k).media.overlay = (s.slice k).media.overlay.filter (fun o => !(decide (o.1 / 1024 = f.key) && o.2.captured)) ∧
        ((t.slice k).media.block j.val d.val f.blk).use = .data ∧ (∀ g ∈ (t.slice k).media.foldSet j.val, g.key ≠ f.key) ∧
        (∀ b, f.old = some b → b < 16384 → f.blk < 16384 → ((t.slice k).media.block j.val d.val b).use = .released ∨ ((t.slice k).media.block j.val d.val b).use = .retired) ∧ t.keys = s.keys)) ∧
    (∀ (d : DieId) blk, (s.slice k).st = .working → ((s.slice k).media.block j.val d.val blk).use = .released →
      ((s.slice k).media.block j.val d.val blk).freed + 16 ≤ s.beat.events ∨ ((s.slice k).media.block j.val d.val blk).freed = 0 → SMap.getD (s.slice k).media.health j.val 0 ≠ 4 →
      (s.slice k).media.deadDies.contains (j.val * 8 + d.val) = false → (s.chan k j).workDone (.reset d.val blk) = true → ((s.chan k j).dies[d]).banks = [] →
      exec (.blockReset k j d blk) s = .next (s.pushReq k j (ChReq.plain .fd .resetBlock d blk
        (if (s.slice k).media.needOneBit j.val d.val (blk % 16) then 1 else 0) 0 0 0 (.reset d.val blk) 0 false)))

/-- R230, R232, R233, R241, R279, R296: garbage collection picks a failed block or, below 2,048 pages ahead, the block behind the head, copies its
live pages to the head one after another, then reads each copy back, then moves every entry at once, and releases the block once no entry names it; the map journal's
buffer is copied whole to both ring copies under FW, its records become mandatory after 48 beats, and a checkpoint of the tables is written page by page over the older
area when the ring passes 64 MiB. Its record follows the last page. -/
def Obligations.JournalsAreCollected : Prop :=
  ∀ (s : State) (k : SliceId),
    (∀ (j : ChanId) (d : DieId) cd, cd = j.val * 8 + d.val →
      ((s.slice k).st = .working → SMap.get? (s.slice k).media.gcs cd = none → (s.slice k).media.deadDies.contains cd = false → SMap.getD (s.slice k).media.health j.val 0 ≠ 4 →
        (∀ b, ((s.slice k).media.journal cd).failed = [b] → ((s.slice k).media.journal cd).ring.contains b = true → Gives (.gcStart k j d) s (fun t =>
          SMap.get? (t.slice k).media.gcs cd = some ⟨b, []⟩ ∧ (((s.slice k).media.journal cd).ring.getLast? = some b → ((t.slice k).media.journal cd).headPage = 512) ∧
          (t.slice k).media.overlay = (s.slice k).media.overlay ∧ t = { s with slices := t.slices })) ∧
        (((s.slice k).media.journal cd).failed = [] → (s.slice k).media.collect = [] →
          (2048 ≤ (s.slice k).media.pagesAhead cd → exec (.gcStart k j d) s = .next s) ∧
          (∀ b, (s.slice k).media.pagesAhead cd < 2048 → ((s.slice k).media.journal cd).ring.dropLast.getLast? = some b → Gives (.gcStart k j d) s (fun t =>
            SMap.get? (t.slice k).media.gcs cd = some ⟨b, []⟩ ∧ (t.slice k).media.overlay = (s.slice k).media.overlay ∧ t = { s with slices := t.slices })))) ∧
      (∀ g, SMap.get? (s.slice k).media.gcs cd = some g →
        (∀ cs olds back, cs = (s.slice k).media.liveCopies g → SMap.getD (s.slice k).media.health j.val 0 ≠ 4 → (s.chan k j).workDone (.gc d.val) = true →
          (∀ c ∈ cs, SMap.get? ((s.chan k j).dies[d]).banks (c.jblock % 16) = none) →
          (∀ pk e b, ((s.slice k).media.livePages j.val d.val g.block).find? (fun pk => !cs.any (fun c => c.key = pk) && !(s.slice k).media.drains.any (fun x => x.key = pk)) = some pk →
            SMap.get? (s.slice k).media.overlay pk = some e → s.pageSeal k pk = none →
            (∀ i, i < 64 → e.sectors.getLsbD (i / 4) = true → s.lineOpen k pk i (.media true e.jblock e.jpage) olds false = false) →
            ((s.slice k).media.journal cd).ring.getLast? = some b → ((s.slice k).media.journal cd).headPage < 512 → Gives (.gcPageCopy k j d olds back) s (fun t =>
              SMap.get? (t.slice k).media.gcs cd = some ⟨g.block, cs ++ [⟨pk, b, ((s.slice k).media.journal cd).headPage, (s.slice k).media.seq + 1, false, false⟩]⟩ ∧
              (t.slice k).media.overlay = (s.slice k).media.overlay ∧ (t.slice k).media.seq = (s.slice k).media.seq + 1 ∧
              ((s.slice k).tree.unver.length ≤ 192 → t.desc = s.desc) ∧ t.keys = s.keys)) ∧
          ((∀ pk ∈ (s.slice k).media.livePages j.val d.val g.block, cs.any (fun c => c.key = pk) = true) →
            (∀ c, cs.find? (fun c => !c.verified) = some c →
              (c.asked = false → Gives (.gcPageCopy k j d olds back) s (fun t =>
                SMap.get? (t.slice k).media.gcs cd = some { g with copies := cs.map (fun x => if x = c then { c with asked := true } else x) } ∧
                (∃ r ∈ (t.chan k j).arb.queue, r.sq = .readTag ∧ r.rq = .fw ∧ r.die = d ∧ r.block = c.jblock ∧ r.page = c.jpage) ∧
                (t.slice k).media.overlay = (s.slice k).media.overlay ∧ t = { s with slices := t.slices })) ∧
              (∀ e, c.asked = true → SMap.get? (s.slice k).media.overlay c.key = some e → exec (.gcPageCopy k j d olds back) s =
                .next (s.updMedia k (fun m => { m with gcs := SMap.put m.gcs cd { g with copies :=
                  (if pagePasses e.sectors back = true then cs.map (fun x => if x = c then { c with verified := true } else x) else cs.filter (· != c)) } })))) ∧
            (cs.find? (fun c => !c.verified) = none → Gives (.gcPageCopy k j d olds back) s (fun t => SMap.get? (t.slice k).media.gcs cd = some { g with copies := [] } ∧
              (∀ c ∈ cs, (∀ x ∈ cs, x.key = c.key → x = c) → SMap.get? (t.slice k).media.overlay c.key =
                (SMap.get? (s.slice k).media.overlay c.key).map (fun e => { e with jblock := c.jblock, jpage := c.jpage, seq := c.seq })) ∧
              (∀ pk, (∀ x ∈ cs, x.key ≠ pk) → SMap.get? (t.slice k).media.overlay pk = SMap.get? (s.slice k).media.overlay pk) ∧ t = { s with slices := t.slices })))) ∧
        (g.copies = [] → (s.slice k).media.livePages j.val d.val g.block = [] → SMap.getD (s.slice k).media.health j.val 0 ≠ 4 → Gives (.gcRelease k j d) s (fun t => SMap.get? (t.slice k).media.gcs cd = none ∧
          (∀ b ∈ ((t.slice k).media.journal cd).ring, b ≠ g.block) ∧ (t.slice k).media.overlay = (s.slice k).media.overlay ∧
          (((t.slice k).media.block j.val d.val g.block).use = .released ∨ ((t.slice k).media.block j.val d.val g.block).use = .retired) ∧ t.desc = s.desc)))) ∧
    (s.areaIdle k .mapCopy Media.ringBlocks = true → (s.slice k).media.copyBad = false →
      ((s.slice k).media.copying = 0 → (s.slice k).media.flying = 0 → (s.slice k).media.buffer ≠ [] → (s.areaUp k 0 = true ∨ s.areaUp k 8 = true) →
        Gives (.mapJournalCopy k) s (fun t => (t.slice k).media = { (s.slice k).media with copying := (s.slice k).media.buffer.length } ∧
          (∀ j : ChanId, ∃ rs, (t.chan k j).arb.queue = (s.chan k j).arb.queue ++ rs ∧ ∀ r ∈ rs, (j = 0 ∨ j = 8) ∧ r.rq = .fw ∧ r.work = .mapCopy ∧ r.die = 0) ∧
          t = { s with slices := t.slices, free := s.free + 1 })) ∧
      ((s.slice k).media.copying ≠ 0 → exec (.mapJournalCopy k) s = .next (s.updMedia k (fun m => { m with
        ring := if s.areaUp k 0 = true then ringAppend m.ring (m.buffer.take m.copying) else m.ring
        ringB := if s.areaUp k 8 = true then ringAppend m.ringB (m.buffer.take m.copying) else m.ringB
        buffer := m.buffer.drop m.copying, copying := 0, copyDue := false, flying := 0 })))) ∧
    (∀ r rest, (s.slice k).media.buffer = r :: rest → r.at' + 48 ≤ s.beat.events → Gives (.mapRecordMandatory k) s (fun t =>
      (t.slice k).media = { (s.slice k).media with copyDue := true } ∧ (∀ j : ChanId, ∀ q ∈ (t.chan k j).arb.queue, q.work = .mapCopy → q.mandatory = true) ∧
      t = { s with slices := t.slices })) ∧
    (s.working k = true → s.timeRec.pass = 0 →
      ((s.slice k).media.ckpt = none → 64 * 2 ^ 20 < (s.slice k).media.ringBytes → Gives (.checkpoint k) s (fun t => t = { s with slices := t.slices } ∧
        (t.slice k).media.ckpt = some ⟨(s.slice k).media.olderArea, ⟨(s.slice k).media.mapSeq, (s.slice k).media.bmap, (s.slice k).media.overlay, (s.slice k).media.blocks,
          (s.slice k).media.journals⟩, 0, false⟩ ∧
        ((s.slice k).media.olderArea = true → (t.slice k).media.ckB = (s.slice k).media.ckB) ∧ ((s.slice k).media.olderArea = false → (t.slice k).media.ckA = (s.slice k).media.ckA))) ∧
      (∀ run, (s.slice k).media.ckpt = some run → run.bad = false → s.areaUp k 0 = true → s.areaIdle k .ckpt (fun m j => m.ckptBlocks j run.area) = true →
        (run.page < ckptPages → Gives (.checkpoint k) s (fun t => (t.slice k).media = { (s.slice k).media with ckpt := some { run with page := run.page + 1 } } ∧
          (∃ rs, (t.chan k 0).arb.queue = (s.chan k 0).arb.queue ++ rs ∧ rs.length = 17 ∧ ∀ r ∈ rs, r.rq = .fw ∧ r.work = .ckpt ∧ r.die = 0 ∧ r.page = run.page % 512) ∧
          t = { s with slices := t.slices, free := s.free + 1 })) ∧
        (ckptPages ≤ run.page → Gives (.checkpoint k) s (fun t => (t.slice k).media.ckpt = none ∧
          (if run.area then (t.slice k).media.ckA else (t.slice k).media.ckB) = some run.image ∧
          (∃ x ∈ (t.slice k).media.buffer, x.rec' = .checkpoint run.area run.image.seq) ∧ t = { s with slices := t.slices }))))

/-- R309, R310, R330, R334, R335: a tree node's write-back increments its parent's counter and is mandatory past its deadline; a frame dirty for too
long is due; a group's re-encryption takes the next major with every minor zero, and at the last major a host-supplied key leaves the group with a
record. That majors start again under the new key of a rekey is read from R349 (log entry 89). -/
def Obligations.TreesAreKept : Prop :=
  ∀ (s : State) (k : SliceId),
    (∀ level idx, Gives (.treeWritebackDeadline k level idx) s (fun t => t = { s with slices := t.slices } ∧ (t.slice k).tree.dirty.length = (s.slice k).tree.dirty.length ∧
      (∀ n ∈ (t.slice k).tree.dirty, n.level = level → n.idx = idx → n.since + (s.slice k).pacer.parm.tree ≤ s.beat.events → n.due = true) ∧
      (∀ dr ∈ (t.slice k).media.drains, ∀ n ∈ dr.nodes, n.level = level → n.idx = idx → n.since + (s.slice k).pacer.parm.tree ≤ s.beat.events → n.due = true ∧ dr.mandatory = true) ∧
      (t.slice k).front = (s.slice k).front ∧ (t.slice k).media.overlay = (s.slice k).media.overlay)) ∧
    (∀ idx (r : DrainRead) p i p' b cd, idx < 8 → (∃ n ∈ (s.slice k).tree.dirty, n.level = 8 ∧ n.idx = idx) → s.treePlace k.val 8 idx = some (p, i) → i < 64 →
      substitute s.mediaRec.absent 17 p = .at p' → (∀ d ∈ (s.slice k).media.drains, d.key / 2 ^ 24 ≠ p'.pageKey / 2 ^ 24) → (s.slice k).media.ovRoom p'.pageKey = true →
      ((s.slice k).media.entry (p'.pageKey / 1024)).st ≠ .dead → s.pageNeeds k p'.pageKey = [] → s.notAhead k p'.pageKey = true → s.pageSeal k p'.pageKey = none →
      s.nodeTurn k 8 = true → (s.slice k).media.hasHead (p'.pageKey / 2 ^ 24) = true → s.readForDrain k p'.pageKey r = (true, s) →
      (∀ n c, n < 64 → s.lineOpen k p'.pageKey n ((s.slice k).media.resolve p'.pageKey (n / 4) false) r.olds c = false) → cd = p'.pageKey / 2 ^ 27 % 16 * 8 + p'.pageKey / 2 ^ 24 % 8 →
      ((s.slice k).media.journal cd).ring.getLast? = some b → ((s.slice k).media.journal cd).headPage < 512 → Gives (.treeNodeWriteback k 8 idx r) s (fun t =>
        (t.slice k).tree.root[idx]? = some (s.parentCount k 8 idx + 1) ∧ (∀ n ∈ (t.slice k).tree.dirty, ¬ (n.level = 8 ∧ n.idx = idx)) ∧
        (∃ dr, (t.slice k).media.drains = (s.slice k).media.drains ++ [dr] ∧ dr.key = p'.pageKey ∧ dr.jblock = b) ∧ (t.slice k).media.overlay = (s.slice k).media.overlay ∧
        ((s.slice k).tree.unver.length ≤ 192 → t.desc = s.desc))) ∧
    (∀ f, (s.slice k).pacer.parm.maxAge ≠ 0 → ((s.slice k).front.entry f).present = true → ((s.slice k).front.entry f).dirty ≠ 0 →
      2 ^ (s.slice k).pacer.parm.maxAge < (s.beat.now.setWidth 48 - ((s.slice k).front.frame f).hdrB.firstDirty).toNat → f ∉ (s.slice k).front.aged →
      exec (.frameDirtyAgeExpire k f) s = .next (s.updFront k (fun x => { x with aged := x.aged ++ [f] }))) ∧
    (∀ group olds, (s.slice k).media.reencs.contains group = true →
      (s.regionAt (group * 4096) = none → exec (.groupReencryption k group olds) s = .next (s.updMedia k (fun m => { m with reencs := m.reencs.filter (· != group) }))) ∧
      (∀ r d u i leaf par major, s.regionAt (group * 4096) = some (r, d, u) → s.lineSeal (group * 64) = some i → s.nodeLine k 0 i = some leaf → s.nodeLine k 1 (i / 8) = some par →
        major = (nodeEntry par (i % 8)).toNat % 2 ^ 40 →
        (major < 2 ^ 40 - 1 ∨ d.st = .rekeying → i < 2 ^ 26 → group * 4096 < treeBase → SMap.sorted (s.slice k).front.dir = true → SMap.sorted (s.slice k).front.spill = true → (s.slice k).front.spill.length < 2046 →
          ((s.slice k).front.find (group * 2)).isSome = true → ((s.slice k).front.find (group * 2 + 1)).isSome = true →
          (∀ g n e, g / 2 = group → (s.slice k).front.find g = some (n, e) → e.retired = false) →
          (∀ n pk, n < 64 → s.pageOf (group * 64 + n) = some pk → s.lineOpen k pk n ((s.slice k).media.resolve pk (n / 4) false) olds true = false) →
          Gives (.groupReencryption k group olds) s (fun t =>
            t.nodeLine k 0 i = some 0 ∧ t.nodeLine k 1 (i / 8) = some (setEntry par (i % 8) (BitVec.ofNat 64 ((major + 1) % 2 ^ 40))) ∧
            (t.slice k).media.reencs.contains group = false ∧ t.desc = s.desc ∧ t.keys = s.keys)) ∧
        (∀ key, major = 2 ^ 40 - 1 → d.st ≠ .rekeying → SMap.get? s.keys d.keyId = some key → key.dev = false → s.warnedOf (r + 65536) = false →
          Gives (.groupReencryption k group olds) s (fun t => (t.slice k).tree.warned = (r + 65536) :: (s.slice k).tree.warned ∧ t.desc = s.desc ∧ t.keys = s.keys ∧
            (t.slice k).media = (s.slice k).media ∧ (t.slice k).front = (s.slice k).front))))

/-- R75, R234, R451, R452, R453, R454, R463, R464, R486, Tables 14-1 and 14-2: a power-on or a brown-out of 1 µs brings every state to its reset value but
what flash, the ledger's shadow, the medium, the pins and the fuses hold; RESET_L low for 1 µs is a package-warm reset, which keeps keys, regions and
SRAM, and the overlay where no locked tenure is cut off. -/
def Obligations.ResetsReachWhatTheyCover : Prop :=
  ∀ (s : State), Gives .powerOnReset s (ColdFrom s · false) ∧ (∀ ns, 1000 ≤ ns → Gives (.brownOut ns) s (ColdFrom s · true)) ∧
    (∀ ns, 1000 ≤ ns → s.rst.pinHeld = false → s.power.flush = .idle → s.firm.store = none → s.starting = false → s.discards = [] → Gives (.resetPin ns) s (fun t =>
      t.rst.pinHeld = true ∧ t.rst.todo = warmSteps ∧ t.rst.ready = false ∧ t.keys = s.keys ∧ t.desc = s.desc ∧ t.index = s.index ∧ t.bootProg.count = s.bootProg.count + 1 ∧
      (∀ p, s.present p = true → (t.head p).enabled = false ∧ (t.head p).link = none ∧ (t.head p).cause.lastReach = 2 ∧ (t.head p).cause.bits = setBit (s.head p).cause.bits 2 true ∧
        (t.head p).lsa = (s.head p).lsa ∧ (t.slice p).front = (s.slice p).front ∧ ((s.slice p).media.drains = [] → (t.slice p).tree = (s.slice p).tree) ∧
        ((∀ j, ∀ tn ∈ (s.chan p j).tenures, tn.locked = false) → (t.slice p).media.overlay = (s.slice p).media.overlay))))

/-- R354, R431, R453, R454, R458, R464, R498, R538, R539, R549: a slice whose clock fails goes over to the backup clock and is reset at once; debug
reset, debug reads and writes are open only while debug is unlocked and reach only Clear regions; the keeper takes a position and answers only while
firmware does not run. -/
def Obligations.ClocksAndDebug : Prop :=
  ∀ (s : State),
    (∀ k, s.present k = true → (s.slice k).st ≠ .lost → (s.slice k).clkAlive = true → s.rst.todo = [] → (∀ q, (s.slice q).todo = []) → s.discards = [] → Gives (.clockFailure k) s (fun t =>
      (t.slice k).backupClk = true ∧ (t.slice k).clkAlive = true ∧ (t.slice k).st = .resetting ∧ (t.slice k).todo = sliceSteps ∧ (t.head k).enabled = false ∧ t.keys = s.keys ∧ t.desc = s.desc ∧
      (∀ p, s.present p = true → (t.head p).cause.bits = setBit (s.head p).cause.bits 6 true ∧ (t.head p).cause.lastReach = 3 ∧ (t.head p).cause.sliceMask.getLsbD k.val = true) ∧
      (∀ q, q ≠ k → (t.slice q).todo = []))) ∧
    exec .servicePllUnlock s = .next { s with rst := { s.rst with servicePll := false } } ∧
    (s.rst.debugOpen = true → s.power.flush = .idle → s.firm.store = none → s.starting = false →
      Gives (.dbgReset false) s (fun t => t.rst.mgmtDown = true ∧ t.keys = s.keys ∧ t.desc = s.desc ∧ (∀ k, t.slice k = s.slice k) ∧
        (∀ p, s.present p = true → (t.head p).mboxReady = false ∧ (t.head p).link = (s.head p).link ∧ (t.head p).cause.lastReach = 5 ∧
          (t.head p).cause.bits = setBit (s.head p).cause.bits 4 true)) ∧
      (s.discards = [] → Gives (.dbgReset true) s (fun t => t.rst.todo = warmSteps ∧ t.rst.debugOpen = false ∧ t.keys = s.keys ∧ t.desc = s.desc))) ∧
    (s.rst.debugOpen = false → (∀ w, exec (.dbgReset w) s = .next s) ∧ (∀ op, exec (.debugMemoryAccess op) s = .next s)) ∧
    exec .dbgEnFall s = .next { s with rst := { s.rst with dbgEn := false, debugOpen := false } } ∧
    (∀ b, exec (.jtagBoundaryScanInstruction b) s = .next { s with rst := { s.rst with boundary := b } }) ∧
    (s.rst.debugOpen = true → ∀ dpa rs,
      (s.debugClear dpa = false → ∀ i, (i = .debugMemoryAccess (.read dpa rs) ∨ ∃ data, i = .debugMemoryAccess (.write dpa data)) → Gives i s (fun t =>
        t.out.filter (fun o => match o with | .debug _ false => true | _ => false) = s.out.filter (fun o => match o with | .debug _ false => true | _ => false) ∧
        t.desc = s.desc ∧ t.keys = s.keys ∧ ∀ k, (t.slice k).front = (s.slice k).front ∧ (t.slice k).media = (s.slice k).media)) ∧
      (∀ q w n dirty, q = s.debugSlice dpa → s.debugClear dpa = true → (s.slice q).st = .working → (s.slice q).front.poison.contains (dpa / 64) = false →
        ((s.slice q).front.look (dpa / 64) = .full w n dirty → w.poisoned = false →
          exec (.debugMemoryAccess (.read dpa rs)) s = .next ({ s with free := s.free + 1 }.emit (.debug w.read false))) ∧
        ((s.slice q).front.look (dpa / 64) = .miss → (∀ h, s.lineSource q (dpa / 64) = some (h, .zero) →
            exec (.debugMemoryAccess (.read dpa rs)) s = .next ({ s with free := s.free + 1 }.emit (.debug 0 false))) ∧
          ∀ x, s.debugMedia q (dpa / 64) rs = some x → Gives (.debugMemoryAccess (.read dpa rs)) s (fun t => t.out.head? = some (.debug x false) ∧ t.desc = s.desc ∧
            t.keys = s.keys ∧ ∀ k, (t.slice k).front = (s.slice k).front)))) ∧
    (s.keeperAnswers = false → (∀ bs, exec (.keeperWrite bs) s = .next (s.emit (.keeper none))) ∧ ∀ n, exec (.keeperRead n) s = .next (s.emit (.keeper none))) ∧
    (s.keeperAnswers = true → (∀ a l h : Byte, exec (.keeperWrite [a, l, h]) s =
        .next ({ s with firm := { s.firm with keeper := (a.toNat, l.toNat + 256 * h.toNat) } }.emit (.keeper (some [])))) ∧
      (∀ bs, bs.length ≠ 3 → exec (.keeperWrite bs) s = .next (s.emit (.keeper (some [])))) ∧
      ∀ n, Gives (.keeperRead n) s (fun t => ∃ bs, t = { s with free := s.free + 1, out := .keeper (some bs) :: s.out } ∧ bs.length = n ∧
        (s.firm.keeper.1 = 6 → bs = (List.range n).map (fun i => s.keeperId.getD ((s.firm.keeper.2 + i) % 16) 0))))

/-- R425, R426, R427, R428, R429, R431, R432, R433, R438, Tables 13-1 and 13-2: the rails start in groups, a rail that does not come up or fails is
switched off and logged, in service with a record, a replace cause and recovery, which takes up to three attempts. -/
def Obligations.RailsAreSupervised : Prop :=
  ∀ (s : State), s.power.flush = .idle →
    (∀ ms, 20 ≤ ms → 4 ∈ s.rst.todo → 4 ∈ s.rst.coldSteps → exec (.coldStartPrecondition ms) s = .next { s with power := { s.power with precond := true } }) ∧
    (s.railStep = true → s.power.precond = true → s.power.group ≤ 4 → Gives .railGroupEnable s (fun t => t.power.group = s.power.group + 1 ∧ t = { s with power := t.power, out := t.out } ∧
      (∀ r ∈ railGroup s.power.group, s.driven r = true → (t.power.rails[r]).en = true) ∧
      (∀ r ∈ railGroup (s.power.group - 1), (s.power.rails[r]).en = true → (s.power.rails[r]).failed = false → (t.power.rails[r]).good = true))) ∧
    (∀ (r : Fin 20) (us : Nat), 5000 ≤ us → s.driven r = true → (s.power.rails[r]).en = true → (s.power.rails[r]).good = false → Gives (.railUpTimeout r us) s (fun t =>
      (t.power.rails[r]).failed = true ∧ (t.power.rails[r]).en = false ∧ t.railLog.failed.getLsbD r.val = true ∧ t.railLog.faults[r] = satInc s.railLog.faults[r] ∧ t.keys = s.keys)) ∧
    (∀ (r : Fin 20) (mv : Nat), s.supervised r = true → exec (.railSample r mv) s = .next (s.updRail r (fun x => { x with mv := mv })) ∧
      (∀ ns, 1000 ≤ ns → s.phase = 3 → beyond (railNominal r.val) mv ((s.power.cfg.warn[r.val]?).getD 6) = true → Gives (.railWarning r mv ns) s (fun t =>
        t.railLog.warned.getLsbD r.val = true ∧ t.railLog.warnings[r] = satInc s.railLog.warnings[r] ∧ t.power = s.power ∧ t.slices = s.slices ∧ t.desc = s.desc))) ∧
    (∀ (r : Fin 20) (word : BitVec 16) (ok : Bool), ((s.power.cfg.pmbus[r.val]?).getD 0).getLsbD 7 = true → exec (.pmbAlert r word ok) s =
      .next { s with power := { s.power with pmbLog := SMap.put s.power.pmbLog r.val (if ok then some word else none) } }) ∧
    (∀ (r : Fin 20) (kind : RailKind), s.driven r = true → (s.power.rails[r]).en = true → s.phase = 3 → Gives (.railFailure r kind) s (fun t =>
      (t.power.rails[r]).failed = true ∧ (t.power.rails[r]).en = false ∧ (t.power.rails[r]).recovering = (if r = 9 then none else some 0) ∧ t.health.causes.getLsbD 1 = true ∧
      t.railLog.failed.getLsbD r.val = true ∧ t.railLog.faults[r] = satInc s.railLog.faults[r] ∧ t.keys = s.keys ∧
      (s.railLog.armed = true → t.railLog.first.toNat = r.val ∧ t.railLog.kind.toNat = railKind kind ∧ t.railLog.phase = 3 ∧ t.railLog.beat = s.beat.now ∧ t.railLog.armed = false) ∧
      (∀ k : SliceId, r.val = k.val → (t.slice k).st = .lost ∧ ((s.slice k).st ≠ .lost → (t.head k).enabled = false)))) ∧
    (∀ (r : Fin 20) (ms n : Nat), (s.power.rails[r]).recovering = some n → 100 ≤ ms → (s.power.rails[r]).en = false → n < 3 → Gives (.railRecoveryAttempt r ms) s (fun t =>
      (t.power.rails[r]).en = true ∧ (t.power.rails[r]).recovering = some (n + 1) ∧ t = { s with power := t.power, out := t.out })) ∧
    (∀ (r : Fin 20) (ms n : Nat), (s.power.rails[r]).recovering = some n → 10 ≤ ms → (s.power.rails[r]).en = true → Gives (.railRecovered r ms) s (fun t =>
      (t.power.rails[r]).good = true ∧ (t.power.rails[r]).failed = false ∧ (t.power.rails[r]).recovering = none ∧ t.keys = s.keys ∧
      (∀ k : SliceId, r.val = k.val → s.present k = true → (s.slice k).todo = [] → (t.slice k).todo = sliceSteps ∧ (t.slice k).st = .resetting))) ∧
    (s.phase ≠ 0 → (s.power.rails[(9 : Fin 20)]).recovering = none → Gives .sramArrayRailLoss s (fun t => t.power.sramLoss = true ∧ t.health.viral = true ∧ t.keys = s.keys ∧
      ∀ k, s.present k = true → (t.slice k).st = .lost ∧ ((s.slice k).st ≠ .lost → (t.head k).enabled = false)))

/-- R353, R439, R440, R441, R442, R443, R444, R446, R447, R450, R451: a power-fail trigger of 200 ns opens the acceptance window; after it every slice
flushes; when all have, the record, the beat counter and the roots go to the ledger; a rail fault cuts the flush short; the measured margin is
recorded and the rails go off; 20 ms of returned supply start the device cold. -/
def Obligations.PowerFailIsFlushed : Prop :=
  ∀ (s : State),
    (s.power.flush = .idle → s.powered = true → ∀ tr, (∃ ns, 200 ≤ ns ∧ (tr = .pwrFail ns ∨ tr = .hold ns)) ∨ (tr = .thermal ∧ s.power.thermShut = true) →
      Gives (.powerFailTrigger tr) s (fun t => t.power.flush = .window ∧ t.power.trigBeat = s.beat.now ∧ t.power.aborted = false ∧ t.power.returned = false ∧
        t.power.thermal = decide (tr = .thermal) ∧ (∀ k, (t.slice k).flushed = false ∧ (t.slice k).front = (s.slice k).front) ∧ t.desc = s.desc ∧ t.led = s.led ∧ t.heads = s.heads)) ∧
    (∀ ns k, 2000 ≤ ns → s.power.flush = .window → s.present k = true → (s.slice k).st = .working → (s.slice k).flushed = false →
      exec (.acceptanceWindowClose ns) s = .next { s with power := { s.power with flush := .drain } }) ∧
    (∀ k, s.power.flush = .drain → s.present k = true → (s.slice k).st = .working → s.nothingLeft k = true → (s.slice k).front.poison = [] →
      (∀ n ∈ (s.slice k).tree.dirty, n.level < 2) →
      (∀ q, q ≠ k → s.present q = true → (s.slice q).st = .working → (s.slice q).flushed = false → exec (.flushSliceDone k) s = .next (s.updSlice k (fun x => { x with flushed := true }))) ∧
      (s.power.thermal = false → s.power.aborted = false → (∀ q, q ≠ k → s.present q = true → (s.slice q).st = .working ∧ (s.slice q).flushed = true) →
        Gives (.flushSliceDone k) s (fun t => t.power.flush = .measure ∧ t.shut.result = 1 ∧ t.shut.unflushed = 0 ∧ t.timeRec.l = s.beat.now ∧
          (∀ q, s.present q = true → (t.protRecs[q]).clean = true ∧ (t.protRecs[q]).root = (s.slice q).tree.root)))) ∧
    (∀ r, r ≠ 19 → s.supervised r = true → s.power.flush = .drain → s.power.thermal = false → Gives (.flushAbort r) s (fun t => t.power.flush = .off ∧ t.power.aborted = true ∧
      t.shut.result = 2 ∧ (∀ x, s.driven x = true → (t.power.rails[x]).en = false))) ∧
    (∀ us fl, s.power.flush = .measure → s.power.returned = false → Gives (.holdupMarginMeasured us fl) s (fun t => t.power.flush = .off ∧ t.holdRec.margin = min us 20000 ∧
      t.holdRec.flush = fl ∧ t.holdRec.q = newQ s.holdRec.q fl s.power.projAtTrig ∧ t.holdRec.noMeas = false ∧ (∃ c, t.holdRec.downs.head? = some ⟨min us 20000, fl, c, false, s.power.trigBeat⟩) ∧
      (∀ x, s.driven x = true → (t.power.rails[x]).en = false))) ∧
    (∀ ms, (s.power.flush = .window ∨ s.power.flush = .drain ∨ s.power.flush = .measure → exec (.warmReturn ms) s = .next { s with power := { s.power with returned := true } }) ∧
      (s.power.flush = .off → s.power.thermShut = false → 20 ≤ ms → Gives (.warmReturn ms) s (fun t => t.power.flush = .idle ∧ t.rst.todo = State.reset.rst.todo ∧ t.desc = [] ∧ t.keys = [] ∧
        (s.shadow.old = none → t.shadow = s.shadow) ∧ ∀ p, (t.head p).cause.lastReach = 1 ∧ (t.head p).cause.bits.getLsbD 0 = !s.power.returned)))

/-- R105, R112, R113, R276, R467, R468, R469, R470, R471, R474, Table 14-4: a boot step's attempt is recorded as it starts; its success takes the step off
the start and has its effect; its failure leaves the step to be tried again, the slices whose SRAM failed noted in step 07 and the lookaside caches off in
step 10; a cold start's first step whose trims lie in the flash waits for it; the fourth failure of image verification stops the start, which then repeats its record
on the UART. R276, R418, R474: the wait of step 11 ends when the epoch is fixed, done, or by its alternate; a stopped start sends its whole boot
record, 4 bytes of BOOT_COUNT and 12 for each step. -/
def Obligations.BootStepsRun : Prop :=
  (∀ (s : State) (n : Fin 14) (o : BootOutcome) (c : Nat), c = (s.stepBegins n).stepCount n → s.rst.epochWait = false → s.stepDue .package n.val = true →
    (o.cut = true → c < 5 → n ≠ 0 → n ≠ 11 → exec (.bootStepAttempt .package n o) s = .next (s.stepBegins n)) ∧
    (o.cut = false → o.ok = false → c < 4 → n ∈ [(1 : Fin 14), 2, 5, 6, 9, 12] →
      exec (.bootStepAttempt .package n o) s = .next ((s.stepBegins n).stepState n 3)) ∧
    (o.cut = false → o.ok = false → c < 4 → n = 7 → exec (.bootStepAttempt .package n o) s =
      .next ({ (s.stepBegins n) with rst := { s.rst with failedSram := s.rst.failedSram ||| o.badSlices } }.stepState n 3)) ∧
    (o.cut = false → o.ok = false → c < 4 → n = 10 → Gives (.bootStepAttempt .package n o) s (fun t => (t.bootProg.steps[n]).st = 3 ∧ t.rst = s.rst ∧
      (∀ k ∈ s.covered .package 10, (t.slice k).cacheOn = false ∧ (t.slice k).cache = (s.slice k).cache) ∧ t.desc = s.desc ∧ t.keys = s.keys)) ∧
    (o.cut = false → o.ok = false → c = 4 → n = 6 → Gives (.bootStepAttempt .package n o) s (fun t => t.rst.stopped = true ∧ t.rst.ready = false ∧ (t.bootProg.steps[n]).st = 3 ∧
      t.health.causes.getLsbD 6 = true ∧ t.rst.todo = s.rst.todo)) ∧
    (o.cut = false → o.ok = true → c < 5 →
      (n = 1 → o.trimFlash = false → exec (.bootStepAttempt .package n o) s = .next ((s.stepBegins n).stepDone .package n (if 3 ≤ c then 4 else 2))) ∧
      (n = 1 → o.trimFlash = true → 3 ≤ c → s.rst.coldSteps.contains 1 = true → Gives (.bootStepAttempt .package n o) s (fun t => t.rst.trimWait = true ∧
        t.rst.todo = s.rst.todo.filter (· != 1) ∧ (t.bootProg.steps[n]).st = 1 ∧ t.slices = s.slices)) ∧
      (n = 7 → Gives (.bootStepAttempt .package n o) s (fun t => t.rst.todo = s.rst.todo.filter (· != 7) ∧ (t.bootProg.steps[n]).st = (if 3 ≤ c then 4 else 2) ∧
        (∀ k ∈ s.covered .package 7, (t.slice k).front = { Front.reset with zeroed := decide (3 ≤ c) && s.rst.failedSram.getLsbD k.val }) ∧ t.led = { s.led with boot := t.led.boot } ∧ t.heads.map (·.enabled) = s.heads.map (·.enabled))) ∧
      (n = 12 → s.serdesRails = true → (∀ k ∈ s.covered .package 12, o.badPorts.getLsbD k.val = false) → Gives (.bootStepAttempt .package n o) s (fun t =>
        t.rst.todo = s.rst.todo.filter (· != 12) ∧ (∀ k ∈ s.covered .package 12, (t.head k).enabled = true ∧ (t.head k).mboxReady = !s.rst.mgmtDown) ∧
        t.beat.step12 = some s.beat.events)) ∧
      (n = 13 → Gives (.bootStepAttempt .package n o) s (fun t => t.rst.ready = true ∧ t.rst.todo = s.rst.todo.filter (· != 13) ∧ (t.bootProg.steps[n]).st = 2 ∧ t.desc = s.desc ∧ t.keys = s.keys)))) ∧
  (∀ (s : State),
    (s.rst.epochWait = true → s.waitOver = true → s.timeRec.pass = 0 → s.beat.due = 0 → exec .epochWaitEnd s =
      .next ({ s with rst := { s.rst with epochWait := false } }.stepDone .package 11 (if s.beat.epoch != Epoch.unfixed then 2 else 4))) ∧
    (s.rst.epochWait = true → s.waitOver = false → exec .epochWaitEnd s = .next s) ∧
    (s.rst.stopped = true → Gives .bootRecordUart s (fun t => ∃ bs : List Byte, t = { s with rst := { s.rst with uartSec := s.rst.uartSec + 1 }, out := .uart bs :: s.out } ∧ bs.length = 172 ∧
      field bs 0 4 = s.bootProg.count.toNat % 2 ^ 32)) ∧
    (s.rst.stopped = false → exec .bootRecordUart s = .next s))
end

