-- ==== Sys2Proof/Laws/State.lean ====
section
/-! SUPPORT. The fields of the state under each plain update: one lemma per field and update, true by rfl, and what one head, slice or
channel reads as after an update of one. -/

namespace Sys2Proof.Machine

variable (s : State)

/-! ### Vectors -/

/-- mapV is the map of vectors, in a form that the kernel evaluates. -/
@[simp] theorem mapV_eq {α β : Type} {n : Nat} (v : Vector α n) (f : α → β) : mapV v f = v.map f := by
  ext i hi
  simp [mapV]

@[simp] theorem zipV_getElem {α β γ : Type} {n : Nat} (f : α → β → γ) (v : Vector α n) (w : Vector β n) (i : Nat) (hi : i < n) :
    (zipV f v w)[i] = f v[i] w[i] := by
  simp [zipV]

/-! ### emit -/

@[simp] theorem emit_fused (o : Out) : (s.emit o).fused = s.fused := rfl
@[simp] theorem emit_heads (o : Out) : (s.emit o).heads = s.heads := rfl
@[simp] theorem emit_slices (o : Out) : (s.emit o).slices = s.slices := rfl
@[simp] theorem emit_desc (o : Out) : (s.emit o).desc = s.desc := rfl
@[simp] theorem emit_index (o : Out) : (s.emit o).index = s.index := rfl
@[simp] theorem emit_discards (o : Out) : (s.emit o).discards = s.discards := rfl
@[simp] theorem emit_chunks (o : Out) : (s.emit o).chunks = s.chunks := rfl
@[simp] theorem emit_beat (o : Out) : (s.emit o).beat = s.beat := rfl
@[simp] theorem emit_rst (o : Out) : (s.emit o).rst = s.rst := rfl
@[simp] theorem emit_power (o : Out) : (s.emit o).power = s.power := rfl
@[simp] theorem emit_led (o : Out) : (s.emit o).led = s.led := rfl
@[simp] theorem emit_shadow (o : Out) : (s.emit o).shadow = s.shadow := rfl
@[simp] theorem emit_profNo (o : Out) : (s.emit o).profNo = s.profNo := rfl
@[simp] theorem emit_profRom (o : Out) : (s.emit o).profRom = s.profRom := rfl
@[simp] theorem emit_prof (o : Out) : (s.emit o).prof = s.prof := rfl
@[simp] theorem emit_firm (o : Out) : (s.emit o).firm = s.firm := rfl
@[simp] theorem emit_keys (o : Out) : (s.emit o).keys = s.keys := rfl
@[simp] theorem emit_health (o : Out) : (s.emit o).health = s.health := rfl
@[simp] theorem emit_nextId (o : Out) : (s.emit o).nextId = s.nextId := rfl
@[simp] theorem emit_free (o : Out) : (s.emit o).free = s.free := rfl
@[simp] theorem emit_pending (o : Out) : (s.emit o).pending = s.pending := rfl

/-! ### draw -/

@[simp] theorem draw_fused  : (s.draw.2).fused = s.fused := rfl
@[simp] theorem draw_heads  : (s.draw.2).heads = s.heads := rfl
@[simp] theorem draw_slices  : (s.draw.2).slices = s.slices := rfl
@[simp] theorem draw_desc  : (s.draw.2).desc = s.desc := rfl
@[simp] theorem draw_index  : (s.draw.2).index = s.index := rfl
@[simp] theorem draw_discards  : (s.draw.2).discards = s.discards := rfl
@[simp] theorem draw_chunks  : (s.draw.2).chunks = s.chunks := rfl
@[simp] theorem draw_beat  : (s.draw.2).beat = s.beat := rfl
@[simp] theorem draw_rst  : (s.draw.2).rst = s.rst := rfl
@[simp] theorem draw_power  : (s.draw.2).power = s.power := rfl
@[simp] theorem draw_led  : (s.draw.2).led = s.led := rfl
@[simp] theorem draw_shadow  : (s.draw.2).shadow = s.shadow := rfl
@[simp] theorem draw_profNo  : (s.draw.2).profNo = s.profNo := rfl
@[simp] theorem draw_profRom  : (s.draw.2).profRom = s.profRom := rfl
@[simp] theorem draw_prof  : (s.draw.2).prof = s.prof := rfl
@[simp] theorem draw_firm  : (s.draw.2).firm = s.firm := rfl
@[simp] theorem draw_keys  : (s.draw.2).keys = s.keys := rfl
@[simp] theorem draw_health  : (s.draw.2).health = s.health := rfl
@[simp] theorem draw_nextId  : (s.draw.2).nextId = s.nextId := rfl
@[simp] theorem draw_out  : (s.draw.2).out = s.out := rfl
@[simp] theorem draw_pending  : (s.draw.2).pending = s.pending := rfl

/-! ### updHead -/

@[simp] theorem updHead_fused (p : Port) (f : Head → Head) : (s.updHead p f).fused = s.fused := rfl
@[simp] theorem updHead_slices (p : Port) (f : Head → Head) : (s.updHead p f).slices = s.slices := rfl
@[simp] theorem updHead_desc (p : Port) (f : Head → Head) : (s.updHead p f).desc = s.desc := rfl
@[simp] theorem updHead_index (p : Port) (f : Head → Head) : (s.updHead p f).index = s.index := rfl
@[simp] theorem updHead_discards (p : Port) (f : Head → Head) : (s.updHead p f).discards = s.discards := rfl
@[simp] theorem updHead_chunks (p : Port) (f : Head → Head) : (s.updHead p f).chunks = s.chunks := rfl
@[simp] theorem updHead_beat (p : Port) (f : Head → Head) : (s.updHead p f).beat = s.beat := rfl
@[simp] theorem updHead_rst (p : Port) (f : Head → Head) : (s.updHead p f).rst = s.rst := rfl
@[simp] theorem updHead_power (p : Port) (f : Head → Head) : (s.updHead p f).power = s.power := rfl
@[simp] theorem updHead_led (p : Port) (f : Head → Head) : (s.updHead p f).led = s.led := rfl
@[simp] theorem updHead_shadow (p : Port) (f : Head → Head) : (s.updHead p f).shadow = s.shadow := rfl
@[simp] theorem updHead_profNo (p : Port) (f : Head → Head) : (s.updHead p f).profNo = s.profNo := rfl
@[simp] theorem updHead_profRom (p : Port) (f : Head → Head) : (s.updHead p f).profRom = s.profRom := rfl
@[simp] theorem updHead_prof (p : Port) (f : Head → Head) : (s.updHead p f).prof = s.prof := rfl
@[simp] theorem updHead_firm (p : Port) (f : Head → Head) : (s.updHead p f).firm = s.firm := rfl
@[simp] theorem updHead_keys (p : Port) (f : Head → Head) : (s.updHead p f).keys = s.keys := rfl
@[simp] theorem updHead_health (p : Port) (f : Head → Head) : (s.updHead p f).health = s.health := rfl
@[simp] theorem updHead_nextId (p : Port) (f : Head → Head) : (s.updHead p f).nextId = s.nextId := rfl
@[simp] theorem updHead_free (p : Port) (f : Head → Head) : (s.updHead p f).free = s.free := rfl
@[simp] theorem updHead_out (p : Port) (f : Head → Head) : (s.updHead p f).out = s.out := rfl
@[simp] theorem updHead_pending (p : Port) (f : Head → Head) : (s.updHead p f).pending = s.pending := rfl

/-! ### mapHeads -/

@[simp] theorem mapHeads_fused (f : Head → Head) : (s.mapHeads f).fused = s.fused := rfl
@[simp] theorem mapHeads_slices (f : Head → Head) : (s.mapHeads f).slices = s.slices := rfl
@[simp] theorem mapHeads_desc (f : Head → Head) : (s.mapHeads f).desc = s.desc := rfl
@[simp] theorem mapHeads_index (f : Head → Head) : (s.mapHeads f).index = s.index := rfl
@[simp] theorem mapHeads_discards (f : Head → Head) : (s.mapHeads f).discards = s.discards := rfl
@[simp] theorem mapHeads_chunks (f : Head → Head) : (s.mapHeads f).chunks = s.chunks := rfl
@[simp] theorem mapHeads_beat (f : Head → Head) : (s.mapHeads f).beat = s.beat := rfl
@[simp] theorem mapHeads_rst (f : Head → Head) : (s.mapHeads f).rst = s.rst := rfl
@[simp] theorem mapHeads_power (f : Head → Head) : (s.mapHeads f).power = s.power := rfl
@[simp] theorem mapHeads_led (f : Head → Head) : (s.mapHeads f).led = s.led := rfl
@[simp] theorem mapHeads_shadow (f : Head → Head) : (s.mapHeads f).shadow = s.shadow := rfl
@[simp] theorem mapHeads_profNo (f : Head → Head) : (s.mapHeads f).profNo = s.profNo := rfl
@[simp] theorem mapHeads_profRom (f : Head → Head) : (s.mapHeads f).profRom = s.profRom := rfl
@[simp] theorem mapHeads_prof (f : Head → Head) : (s.mapHeads f).prof = s.prof := rfl
@[simp] theorem mapHeads_firm (f : Head → Head) : (s.mapHeads f).firm = s.firm := rfl
@[simp] theorem mapHeads_keys (f : Head → Head) : (s.mapHeads f).keys = s.keys := rfl
@[simp] theorem mapHeads_health (f : Head → Head) : (s.mapHeads f).health = s.health := rfl
@[simp] theorem mapHeads_nextId (f : Head → Head) : (s.mapHeads f).nextId = s.nextId := rfl
@[simp] theorem mapHeads_free (f : Head → Head) : (s.mapHeads f).free = s.free := rfl
@[simp] theorem mapHeads_out (f : Head → Head) : (s.mapHeads f).out = s.out := rfl
@[simp] theorem mapHeads_pending (f : Head → Head) : (s.mapHeads f).pending = s.pending := rfl

/-! ### updSlice -/

@[simp] theorem updSlice_fused (k : SliceId) (f : Slice → Slice) : (s.updSlice k f).fused = s.fused := rfl
@[simp] theorem updSlice_heads (k : SliceId) (f : Slice → Slice) : (s.updSlice k f).heads = s.heads := rfl
@[simp] theorem updSlice_desc (k : SliceId) (f : Slice → Slice) : (s.updSlice k f).desc = s.desc := rfl
@[simp] theorem updSlice_index (k : SliceId) (f : Slice → Slice) : (s.updSlice k f).index = s.index := rfl
@[simp] theorem updSlice_discards (k : SliceId) (f : Slice → Slice) : (s.updSlice k f).discards = s.discards := rfl
@[simp] theorem updSlice_chunks (k : SliceId) (f : Slice → Slice) : (s.updSlice k f).chunks = s.chunks := rfl
@[simp] theorem updSlice_beat (k : SliceId) (f : Slice → Slice) : (s.updSlice k f).beat = s.beat := rfl
@[simp] theorem updSlice_rst (k : SliceId) (f : Slice → Slice) : (s.updSlice k f).rst = s.rst := rfl
@[simp] theorem updSlice_power (k : SliceId) (f : Slice → Slice) : (s.updSlice k f).power = s.power := rfl
@[simp] theorem updSlice_led (k : SliceId) (f : Slice → Slice) : (s.updSlice k f).led = s.led := rfl
@[simp] theorem updSlice_shadow (k : SliceId) (f : Slice → Slice) : (s.updSlice k f).shadow = s.shadow := rfl
@[simp] theorem updSlice_profNo (k : SliceId) (f : Slice → Slice) : (s.updSlice k f).profNo = s.profNo := rfl
@[simp] theorem updSlice_profRom (k : SliceId) (f : Slice → Slice) : (s.updSlice k f).profRom = s.profRom := rfl
@[simp] theorem updSlice_prof (k : SliceId) (f : Slice → Slice) : (s.updSlice k f).prof = s.prof := rfl
@[simp] theorem updSlice_firm (k : SliceId) (f : Slice → Slice) : (s.updSlice k f).firm = s.firm := rfl
@[simp] theorem updSlice_keys (k : SliceId) (f : Slice → Slice) : (s.updSlice k f).keys = s.keys := rfl
@[simp] theorem updSlice_health (k : SliceId) (f : Slice → Slice) : (s.updSlice k f).health = s.health := rfl
@[simp] theorem updSlice_nextId (k : SliceId) (f : Slice → Slice) : (s.updSlice k f).nextId = s.nextId := rfl
@[simp] theorem updSlice_free (k : SliceId) (f : Slice → Slice) : (s.updSlice k f).free = s.free := rfl
@[simp] theorem updSlice_out (k : SliceId) (f : Slice → Slice) : (s.updSlice k f).out = s.out := rfl
@[simp] theorem updSlice_pending (k : SliceId) (f : Slice → Slice) : (s.updSlice k f).pending = s.pending := rfl

/-! ### mapSlices -/

@[simp] theorem mapSlices_fused (f : Slice → Slice) : (s.mapSlices f).fused = s.fused := rfl
@[simp] theorem mapSlices_heads (f : Slice → Slice) : (s.mapSlices f).heads = s.heads := rfl
@[simp] theorem mapSlices_desc (f : Slice → Slice) : (s.mapSlices f).desc = s.desc := rfl
@[simp] theorem mapSlices_index (f : Slice → Slice) : (s.mapSlices f).index = s.index := rfl
@[simp] theorem mapSlices_discards (f : Slice → Slice) : (s.mapSlices f).discards = s.discards := rfl
@[simp] theorem mapSlices_chunks (f : Slice → Slice) : (s.mapSlices f).chunks = s.chunks := rfl
@[simp] theorem mapSlices_beat (f : Slice → Slice) : (s.mapSlices f).beat = s.beat := rfl
@[simp] theorem mapSlices_rst (f : Slice → Slice) : (s.mapSlices f).rst = s.rst := rfl
@[simp] theorem mapSlices_power (f : Slice → Slice) : (s.mapSlices f).power = s.power := rfl
@[simp] theorem mapSlices_led (f : Slice → Slice) : (s.mapSlices f).led = s.led := rfl
@[simp] theorem mapSlices_shadow (f : Slice → Slice) : (s.mapSlices f).shadow = s.shadow := rfl
@[simp] theorem mapSlices_profNo (f : Slice → Slice) : (s.mapSlices f).profNo = s.profNo := rfl
@[simp] theorem mapSlices_profRom (f : Slice → Slice) : (s.mapSlices f).profRom = s.profRom := rfl
@[simp] theorem mapSlices_prof (f : Slice → Slice) : (s.mapSlices f).prof = s.prof := rfl
@[simp] theorem mapSlices_firm (f : Slice → Slice) : (s.mapSlices f).firm = s.firm := rfl
@[simp] theorem mapSlices_keys (f : Slice → Slice) : (s.mapSlices f).keys = s.keys := rfl
@[simp] theorem mapSlices_health (f : Slice → Slice) : (s.mapSlices f).health = s.health := rfl
@[simp] theorem mapSlices_nextId (f : Slice → Slice) : (s.mapSlices f).nextId = s.nextId := rfl
@[simp] theorem mapSlices_free (f : Slice → Slice) : (s.mapSlices f).free = s.free := rfl
@[simp] theorem mapSlices_out (f : Slice → Slice) : (s.mapSlices f).out = s.out := rfl
@[simp] theorem mapSlices_pending (f : Slice → Slice) : (s.mapSlices f).pending = s.pending := rfl

/-! ### updFront -/

@[simp] theorem updFront_fused (k : SliceId) (f : Front → Front) : (s.updFront k f).fused = s.fused := rfl
@[simp] theorem updFront_heads (k : SliceId) (f : Front → Front) : (s.updFront k f).heads = s.heads := rfl
@[simp] theorem updFront_desc (k : SliceId) (f : Front → Front) : (s.updFront k f).desc = s.desc := rfl
@[simp] theorem updFront_index (k : SliceId) (f : Front → Front) : (s.updFront k f).index = s.index := rfl
@[simp] theorem updFront_discards (k : SliceId) (f : Front → Front) : (s.updFront k f).discards = s.discards := rfl
@[simp] theorem updFront_chunks (k : SliceId) (f : Front → Front) : (s.updFront k f).chunks = s.chunks := rfl
@[simp] theorem updFront_beat (k : SliceId) (f : Front → Front) : (s.updFront k f).beat = s.beat := rfl
@[simp] theorem updFront_rst (k : SliceId) (f : Front → Front) : (s.updFront k f).rst = s.rst := rfl
@[simp] theorem updFront_power (k : SliceId) (f : Front → Front) : (s.updFront k f).power = s.power := rfl
@[simp] theorem updFront_led (k : SliceId) (f : Front → Front) : (s.updFront k f).led = s.led := rfl
@[simp] theorem updFront_shadow (k : SliceId) (f : Front → Front) : (s.updFront k f).shadow = s.shadow := rfl
@[simp] theorem updFront_profNo (k : SliceId) (f : Front → Front) : (s.updFront k f).profNo = s.profNo := rfl
@[simp] theorem updFront_profRom (k : SliceId) (f : Front → Front) : (s.updFront k f).profRom = s.profRom := rfl
@[simp] theorem updFront_prof (k : SliceId) (f : Front → Front) : (s.updFront k f).prof = s.prof := rfl
@[simp] theorem updFront_firm (k : SliceId) (f : Front → Front) : (s.updFront k f).firm = s.firm := rfl
@[simp] theorem updFront_keys (k : SliceId) (f : Front → Front) : (s.updFront k f).keys = s.keys := rfl
@[simp] theorem updFront_health (k : SliceId) (f : Front → Front) : (s.updFront k f).health = s.health := rfl
@[simp] theorem updFront_nextId (k : SliceId) (f : Front → Front) : (s.updFront k f).nextId = s.nextId := rfl
@[simp] theorem updFront_free (k : SliceId) (f : Front → Front) : (s.updFront k f).free = s.free := rfl
@[simp] theorem updFront_out (k : SliceId) (f : Front → Front) : (s.updFront k f).out = s.out := rfl
@[simp] theorem updFront_pending (k : SliceId) (f : Front → Front) : (s.updFront k f).pending = s.pending := rfl

/-! ### updMedia -/

@[simp] theorem updMedia_fused (k : SliceId) (f : Media → Media) : (s.updMedia k f).fused = s.fused := rfl
@[simp] theorem updMedia_heads (k : SliceId) (f : Media → Media) : (s.updMedia k f).heads = s.heads := rfl
@[simp] theorem updMedia_desc (k : SliceId) (f : Media → Media) : (s.updMedia k f).desc = s.desc := rfl
@[simp] theorem updMedia_index (k : SliceId) (f : Media → Media) : (s.updMedia k f).index = s.index := rfl
@[simp] theorem updMedia_discards (k : SliceId) (f : Media → Media) : (s.updMedia k f).discards = s.discards := rfl
@[simp] theorem updMedia_chunks (k : SliceId) (f : Media → Media) : (s.updMedia k f).chunks = s.chunks := rfl
@[simp] theorem updMedia_beat (k : SliceId) (f : Media → Media) : (s.updMedia k f).beat = s.beat := rfl
@[simp] theorem updMedia_rst (k : SliceId) (f : Media → Media) : (s.updMedia k f).rst = s.rst := rfl
@[simp] theorem updMedia_power (k : SliceId) (f : Media → Media) : (s.updMedia k f).power = s.power := rfl
@[simp] theorem updMedia_led (k : SliceId) (f : Media → Media) : (s.updMedia k f).led = s.led := rfl
@[simp] theorem updMedia_shadow (k : SliceId) (f : Media → Media) : (s.updMedia k f).shadow = s.shadow := rfl
@[simp] theorem updMedia_profNo (k : SliceId) (f : Media → Media) : (s.updMedia k f).profNo = s.profNo := rfl
@[simp] theorem updMedia_profRom (k : SliceId) (f : Media → Media) : (s.updMedia k f).profRom = s.profRom := rfl
@[simp] theorem updMedia_prof (k : SliceId) (f : Media → Media) : (s.updMedia k f).prof = s.prof := rfl
@[simp] theorem updMedia_firm (k : SliceId) (f : Media → Media) : (s.updMedia k f).firm = s.firm := rfl
@[simp] theorem updMedia_keys (k : SliceId) (f : Media → Media) : (s.updMedia k f).keys = s.keys := rfl
@[simp] theorem updMedia_health (k : SliceId) (f : Media → Media) : (s.updMedia k f).health = s.health := rfl
@[simp] theorem updMedia_nextId (k : SliceId) (f : Media → Media) : (s.updMedia k f).nextId = s.nextId := rfl
@[simp] theorem updMedia_free (k : SliceId) (f : Media → Media) : (s.updMedia k f).free = s.free := rfl
@[simp] theorem updMedia_out (k : SliceId) (f : Media → Media) : (s.updMedia k f).out = s.out := rfl
@[simp] theorem updMedia_pending (k : SliceId) (f : Media → Media) : (s.updMedia k f).pending = s.pending := rfl

/-! ### updChan -/

@[simp] theorem updChan_fused (k : SliceId) (j : ChanId) (f : Chan → Chan) : (s.updChan k j f).fused = s.fused := rfl
@[simp] theorem updChan_heads (k : SliceId) (j : ChanId) (f : Chan → Chan) : (s.updChan k j f).heads = s.heads := rfl
@[simp] theorem updChan_desc (k : SliceId) (j : ChanId) (f : Chan → Chan) : (s.updChan k j f).desc = s.desc := rfl
@[simp] theorem updChan_index (k : SliceId) (j : ChanId) (f : Chan → Chan) : (s.updChan k j f).index = s.index := rfl
@[simp] theorem updChan_discards (k : SliceId) (j : ChanId) (f : Chan → Chan) : (s.updChan k j f).discards = s.discards := rfl
@[simp] theorem updChan_chunks (k : SliceId) (j : ChanId) (f : Chan → Chan) : (s.updChan k j f).chunks = s.chunks := rfl
@[simp] theorem updChan_beat (k : SliceId) (j : ChanId) (f : Chan → Chan) : (s.updChan k j f).beat = s.beat := rfl
@[simp] theorem updChan_rst (k : SliceId) (j : ChanId) (f : Chan → Chan) : (s.updChan k j f).rst = s.rst := rfl
@[simp] theorem updChan_power (k : SliceId) (j : ChanId) (f : Chan → Chan) : (s.updChan k j f).power = s.power := rfl
@[simp] theorem updChan_led (k : SliceId) (j : ChanId) (f : Chan → Chan) : (s.updChan k j f).led = s.led := rfl
@[simp] theorem updChan_shadow (k : SliceId) (j : ChanId) (f : Chan → Chan) : (s.updChan k j f).shadow = s.shadow := rfl
@[simp] theorem updChan_profNo (k : SliceId) (j : ChanId) (f : Chan → Chan) : (s.updChan k j f).profNo = s.profNo := rfl
@[simp] theorem updChan_profRom (k : SliceId) (j : ChanId) (f : Chan → Chan) : (s.updChan k j f).profRom = s.profRom := rfl
@[simp] theorem updChan_prof (k : SliceId) (j : ChanId) (f : Chan → Chan) : (s.updChan k j f).prof = s.prof := rfl
@[simp] theorem updChan_firm (k : SliceId) (j : ChanId) (f : Chan → Chan) : (s.updChan k j f).firm = s.firm := rfl
@[simp] theorem updChan_keys (k : SliceId) (j : ChanId) (f : Chan → Chan) : (s.updChan k j f).keys = s.keys := rfl
@[simp] theorem updChan_health (k : SliceId) (j : ChanId) (f : Chan → Chan) : (s.updChan k j f).health = s.health := rfl
@[simp] theorem updChan_nextId (k : SliceId) (j : ChanId) (f : Chan → Chan) : (s.updChan k j f).nextId = s.nextId := rfl
@[simp] theorem updChan_free (k : SliceId) (j : ChanId) (f : Chan → Chan) : (s.updChan k j f).free = s.free := rfl
@[simp] theorem updChan_out (k : SliceId) (j : ChanId) (f : Chan → Chan) : (s.updChan k j f).out = s.out := rfl
@[simp] theorem updChan_pending (k : SliceId) (j : ChanId) (f : Chan → Chan) : (s.updChan k j f).pending = s.pending := rfl

/-! ### count -/

@[simp] theorem count_fused (k : SliceId) (ev : BitVec 12) (n : Nat) : (s.count k ev n).fused = s.fused := rfl
@[simp] theorem count_heads (k : SliceId) (ev : BitVec 12) (n : Nat) : (s.count k ev n).heads = s.heads := rfl
@[simp] theorem count_desc (k : SliceId) (ev : BitVec 12) (n : Nat) : (s.count k ev n).desc = s.desc := rfl
@[simp] theorem count_index (k : SliceId) (ev : BitVec 12) (n : Nat) : (s.count k ev n).index = s.index := rfl
@[simp] theorem count_discards (k : SliceId) (ev : BitVec 12) (n : Nat) : (s.count k ev n).discards = s.discards := rfl
@[simp] theorem count_chunks (k : SliceId) (ev : BitVec 12) (n : Nat) : (s.count k ev n).chunks = s.chunks := rfl
@[simp] theorem count_beat (k : SliceId) (ev : BitVec 12) (n : Nat) : (s.count k ev n).beat = s.beat := rfl
@[simp] theorem count_rst (k : SliceId) (ev : BitVec 12) (n : Nat) : (s.count k ev n).rst = s.rst := rfl
@[simp] theorem count_power (k : SliceId) (ev : BitVec 12) (n : Nat) : (s.count k ev n).power = s.power := rfl
@[simp] theorem count_led (k : SliceId) (ev : BitVec 12) (n : Nat) : (s.count k ev n).led = s.led := rfl
@[simp] theorem count_shadow (k : SliceId) (ev : BitVec 12) (n : Nat) : (s.count k ev n).shadow = s.shadow := rfl
@[simp] theorem count_profNo (k : SliceId) (ev : BitVec 12) (n : Nat) : (s.count k ev n).profNo = s.profNo := rfl
@[simp] theorem count_profRom (k : SliceId) (ev : BitVec 12) (n : Nat) : (s.count k ev n).profRom = s.profRom := rfl
@[simp] theorem count_prof (k : SliceId) (ev : BitVec 12) (n : Nat) : (s.count k ev n).prof = s.prof := rfl
@[simp] theorem count_firm (k : SliceId) (ev : BitVec 12) (n : Nat) : (s.count k ev n).firm = s.firm := rfl
@[simp] theorem count_keys (k : SliceId) (ev : BitVec 12) (n : Nat) : (s.count k ev n).keys = s.keys := rfl
@[simp] theorem count_health (k : SliceId) (ev : BitVec 12) (n : Nat) : (s.count k ev n).health = s.health := rfl
@[simp] theorem count_nextId (k : SliceId) (ev : BitVec 12) (n : Nat) : (s.count k ev n).nextId = s.nextId := rfl
@[simp] theorem count_free (k : SliceId) (ev : BitVec 12) (n : Nat) : (s.count k ev n).free = s.free := rfl
@[simp] theorem count_out (k : SliceId) (ev : BitVec 12) (n : Nat) : (s.count k ev n).out = s.out := rfl
@[simp] theorem count_pending (k : SliceId) (ev : BitVec 12) (n : Nat) : (s.count k ev n).pending = s.pending := rfl

/-! ### countSlot -/

@[simp] theorem countSlot_fused (k : SliceId) (j : ChanId) (ev : BitVec 12) (n : Nat) : (s.countSlot k j ev n).fused = s.fused := rfl
@[simp] theorem countSlot_heads (k : SliceId) (j : ChanId) (ev : BitVec 12) (n : Nat) : (s.countSlot k j ev n).heads = s.heads := rfl
@[simp] theorem countSlot_desc (k : SliceId) (j : ChanId) (ev : BitVec 12) (n : Nat) : (s.countSlot k j ev n).desc = s.desc := rfl
@[simp] theorem countSlot_index (k : SliceId) (j : ChanId) (ev : BitVec 12) (n : Nat) : (s.countSlot k j ev n).index = s.index := rfl
@[simp] theorem countSlot_discards (k : SliceId) (j : ChanId) (ev : BitVec 12) (n : Nat) : (s.countSlot k j ev n).discards = s.discards := rfl
@[simp] theorem countSlot_chunks (k : SliceId) (j : ChanId) (ev : BitVec 12) (n : Nat) : (s.countSlot k j ev n).chunks = s.chunks := rfl
@[simp] theorem countSlot_beat (k : SliceId) (j : ChanId) (ev : BitVec 12) (n : Nat) : (s.countSlot k j ev n).beat = s.beat := rfl
@[simp] theorem countSlot_rst (k : SliceId) (j : ChanId) (ev : BitVec 12) (n : Nat) : (s.countSlot k j ev n).rst = s.rst := rfl
@[simp] theorem countSlot_power (k : SliceId) (j : ChanId) (ev : BitVec 12) (n : Nat) : (s.countSlot k j ev n).power = s.power := rfl
@[simp] theorem countSlot_led (k : SliceId) (j : ChanId) (ev : BitVec 12) (n : Nat) : (s.countSlot k j ev n).led = s.led := rfl
@[simp] theorem countSlot_shadow (k : SliceId) (j : ChanId) (ev : BitVec 12) (n : Nat) : (s.countSlot k j ev n).shadow = s.shadow := rfl
@[simp] theorem countSlot_profNo (k : SliceId) (j : ChanId) (ev : BitVec 12) (n : Nat) : (s.countSlot k j ev n).profNo = s.profNo := rfl
@[simp] theorem countSlot_profRom (k : SliceId) (j : ChanId) (ev : BitVec 12) (n : Nat) : (s.countSlot k j ev n).profRom = s.profRom := rfl
@[simp] theorem countSlot_prof (k : SliceId) (j : ChanId) (ev : BitVec 12) (n : Nat) : (s.countSlot k j ev n).prof = s.prof := rfl
@[simp] theorem countSlot_firm (k : SliceId) (j : ChanId) (ev : BitVec 12) (n : Nat) : (s.countSlot k j ev n).firm = s.firm := rfl
@[simp] theorem countSlot_keys (k : SliceId) (j : ChanId) (ev : BitVec 12) (n : Nat) : (s.countSlot k j ev n).keys = s.keys := rfl
@[simp] theorem countSlot_health (k : SliceId) (j : ChanId) (ev : BitVec 12) (n : Nat) : (s.countSlot k j ev n).health = s.health := rfl
@[simp] theorem countSlot_nextId (k : SliceId) (j : ChanId) (ev : BitVec 12) (n : Nat) : (s.countSlot k j ev n).nextId = s.nextId := rfl
@[simp] theorem countSlot_free (k : SliceId) (j : ChanId) (ev : BitVec 12) (n : Nat) : (s.countSlot k j ev n).free = s.free := rfl
@[simp] theorem countSlot_out (k : SliceId) (j : ChanId) (ev : BitVec 12) (n : Nat) : (s.countSlot k j ev n).out = s.out := rfl
@[simp] theorem countSlot_pending (k : SliceId) (j : ChanId) (ev : BitVec 12) (n : Nat) : (s.countSlot k j ev n).pending = s.pending := rfl

/-! ### addError -/

@[simp] theorem addError_fused (i : Fin 8) (n : Nat) : (s.addError i n).fused = s.fused := rfl
@[simp] theorem addError_heads (i : Fin 8) (n : Nat) : (s.addError i n).heads = s.heads := rfl
@[simp] theorem addError_slices (i : Fin 8) (n : Nat) : (s.addError i n).slices = s.slices := rfl
@[simp] theorem addError_desc (i : Fin 8) (n : Nat) : (s.addError i n).desc = s.desc := rfl
@[simp] theorem addError_index (i : Fin 8) (n : Nat) : (s.addError i n).index = s.index := rfl
@[simp] theorem addError_discards (i : Fin 8) (n : Nat) : (s.addError i n).discards = s.discards := rfl
@[simp] theorem addError_chunks (i : Fin 8) (n : Nat) : (s.addError i n).chunks = s.chunks := rfl
@[simp] theorem addError_beat (i : Fin 8) (n : Nat) : (s.addError i n).beat = s.beat := rfl
@[simp] theorem addError_rst (i : Fin 8) (n : Nat) : (s.addError i n).rst = s.rst := rfl
@[simp] theorem addError_power (i : Fin 8) (n : Nat) : (s.addError i n).power = s.power := rfl
@[simp] theorem addError_led (i : Fin 8) (n : Nat) : (s.addError i n).led = s.led := rfl
@[simp] theorem addError_shadow (i : Fin 8) (n : Nat) : (s.addError i n).shadow = s.shadow := rfl
@[simp] theorem addError_profNo (i : Fin 8) (n : Nat) : (s.addError i n).profNo = s.profNo := rfl
@[simp] theorem addError_profRom (i : Fin 8) (n : Nat) : (s.addError i n).profRom = s.profRom := rfl
@[simp] theorem addError_prof (i : Fin 8) (n : Nat) : (s.addError i n).prof = s.prof := rfl
@[simp] theorem addError_firm (i : Fin 8) (n : Nat) : (s.addError i n).firm = s.firm := rfl
@[simp] theorem addError_keys (i : Fin 8) (n : Nat) : (s.addError i n).keys = s.keys := rfl
@[simp] theorem addError_nextId (i : Fin 8) (n : Nat) : (s.addError i n).nextId = s.nextId := rfl
@[simp] theorem addError_free (i : Fin 8) (n : Nat) : (s.addError i n).free = s.free := rfl
@[simp] theorem addError_out (i : Fin 8) (n : Nat) : (s.addError i n).out = s.out := rfl
@[simp] theorem addError_pending (i : Fin 8) (n : Nat) : (s.addError i n).pending = s.pending := rfl

/-! ### putTime -/

@[simp] theorem putTime_fused (f : TimeRec → TimeRec) : (s.putTime f).fused = s.fused := rfl
@[simp] theorem putTime_heads (f : TimeRec → TimeRec) : (s.putTime f).heads = s.heads := rfl
@[simp] theorem putTime_slices (f : TimeRec → TimeRec) : (s.putTime f).slices = s.slices := rfl
@[simp] theorem putTime_desc (f : TimeRec → TimeRec) : (s.putTime f).desc = s.desc := rfl
@[simp] theorem putTime_index (f : TimeRec → TimeRec) : (s.putTime f).index = s.index := rfl
@[simp] theorem putTime_discards (f : TimeRec → TimeRec) : (s.putTime f).discards = s.discards := rfl
@[simp] theorem putTime_chunks (f : TimeRec → TimeRec) : (s.putTime f).chunks = s.chunks := rfl
@[simp] theorem putTime_beat (f : TimeRec → TimeRec) : (s.putTime f).beat = s.beat := rfl
@[simp] theorem putTime_rst (f : TimeRec → TimeRec) : (s.putTime f).rst = s.rst := rfl
@[simp] theorem putTime_power (f : TimeRec → TimeRec) : (s.putTime f).power = s.power := rfl
@[simp] theorem putTime_shadow (f : TimeRec → TimeRec) : (s.putTime f).shadow = s.shadow := rfl
@[simp] theorem putTime_profNo (f : TimeRec → TimeRec) : (s.putTime f).profNo = s.profNo := rfl
@[simp] theorem putTime_profRom (f : TimeRec → TimeRec) : (s.putTime f).profRom = s.profRom := rfl
@[simp] theorem putTime_prof (f : TimeRec → TimeRec) : (s.putTime f).prof = s.prof := rfl
@[simp] theorem putTime_firm (f : TimeRec → TimeRec) : (s.putTime f).firm = s.firm := rfl
@[simp] theorem putTime_keys (f : TimeRec → TimeRec) : (s.putTime f).keys = s.keys := rfl
@[simp] theorem putTime_health (f : TimeRec → TimeRec) : (s.putTime f).health = s.health := rfl
@[simp] theorem putTime_nextId (f : TimeRec → TimeRec) : (s.putTime f).nextId = s.nextId := rfl
@[simp] theorem putTime_free (f : TimeRec → TimeRec) : (s.putTime f).free = s.free := rfl
@[simp] theorem putTime_out (f : TimeRec → TimeRec) : (s.putTime f).out = s.out := rfl
@[simp] theorem putTime_pending (f : TimeRec → TimeRec) : (s.putTime f).pending = s.pending := rfl

/-! ### putOps -/

@[simp] theorem putOps_fused (f : OpsRec → OpsRec) : (s.putOps f).fused = s.fused := rfl
@[simp] theorem putOps_heads (f : OpsRec → OpsRec) : (s.putOps f).heads = s.heads := rfl
@[simp] theorem putOps_slices (f : OpsRec → OpsRec) : (s.putOps f).slices = s.slices := rfl
@[simp] theorem putOps_desc (f : OpsRec → OpsRec) : (s.putOps f).desc = s.desc := rfl
@[simp] theorem putOps_index (f : OpsRec → OpsRec) : (s.putOps f).index = s.index := rfl
@[simp] theorem putOps_discards (f : OpsRec → OpsRec) : (s.putOps f).discards = s.discards := rfl
@[simp] theorem putOps_chunks (f : OpsRec → OpsRec) : (s.putOps f).chunks = s.chunks := rfl
@[simp] theorem putOps_beat (f : OpsRec → OpsRec) : (s.putOps f).beat = s.beat := rfl
@[simp] theorem putOps_rst (f : OpsRec → OpsRec) : (s.putOps f).rst = s.rst := rfl
@[simp] theorem putOps_power (f : OpsRec → OpsRec) : (s.putOps f).power = s.power := rfl
@[simp] theorem putOps_shadow (f : OpsRec → OpsRec) : (s.putOps f).shadow = s.shadow := rfl
@[simp] theorem putOps_profNo (f : OpsRec → OpsRec) : (s.putOps f).profNo = s.profNo := rfl
@[simp] theorem putOps_profRom (f : OpsRec → OpsRec) : (s.putOps f).profRom = s.profRom := rfl
@[simp] theorem putOps_prof (f : OpsRec → OpsRec) : (s.putOps f).prof = s.prof := rfl
@[simp] theorem putOps_firm (f : OpsRec → OpsRec) : (s.putOps f).firm = s.firm := rfl
@[simp] theorem putOps_keys (f : OpsRec → OpsRec) : (s.putOps f).keys = s.keys := rfl
@[simp] theorem putOps_health (f : OpsRec → OpsRec) : (s.putOps f).health = s.health := rfl
@[simp] theorem putOps_nextId (f : OpsRec → OpsRec) : (s.putOps f).nextId = s.nextId := rfl
@[simp] theorem putOps_free (f : OpsRec → OpsRec) : (s.putOps f).free = s.free := rfl
@[simp] theorem putOps_out (f : OpsRec → OpsRec) : (s.putOps f).out = s.out := rfl
@[simp] theorem putOps_pending (f : OpsRec → OpsRec) : (s.putOps f).pending = s.pending := rfl

/-! ### putRailLog -/

@[simp] theorem putRailLog_fused (f : RailLog → RailLog) : (s.putRailLog f).fused = s.fused := rfl
@[simp] theorem putRailLog_heads (f : RailLog → RailLog) : (s.putRailLog f).heads = s.heads := rfl
@[simp] theorem putRailLog_slices (f : RailLog → RailLog) : (s.putRailLog f).slices = s.slices := rfl
@[simp] theorem putRailLog_desc (f : RailLog → RailLog) : (s.putRailLog f).desc = s.desc := rfl
@[simp] theorem putRailLog_index (f : RailLog → RailLog) : (s.putRailLog f).index = s.index := rfl
@[simp] theorem putRailLog_discards (f : RailLog → RailLog) : (s.putRailLog f).discards = s.discards := rfl
@[simp] theorem putRailLog_chunks (f : RailLog → RailLog) : (s.putRailLog f).chunks = s.chunks := rfl
@[simp] theorem putRailLog_beat (f : RailLog → RailLog) : (s.putRailLog f).beat = s.beat := rfl
@[simp] theorem putRailLog_rst (f : RailLog → RailLog) : (s.putRailLog f).rst = s.rst := rfl
@[simp] theorem putRailLog_power (f : RailLog → RailLog) : (s.putRailLog f).power = s.power := rfl
@[simp] theorem putRailLog_shadow (f : RailLog → RailLog) : (s.putRailLog f).shadow = s.shadow := rfl
@[simp] theorem putRailLog_profNo (f : RailLog → RailLog) : (s.putRailLog f).profNo = s.profNo := rfl
@[simp] theorem putRailLog_profRom (f : RailLog → RailLog) : (s.putRailLog f).profRom = s.profRom := rfl
@[simp] theorem putRailLog_prof (f : RailLog → RailLog) : (s.putRailLog f).prof = s.prof := rfl
@[simp] theorem putRailLog_firm (f : RailLog → RailLog) : (s.putRailLog f).firm = s.firm := rfl
@[simp] theorem putRailLog_keys (f : RailLog → RailLog) : (s.putRailLog f).keys = s.keys := rfl
@[simp] theorem putRailLog_health (f : RailLog → RailLog) : (s.putRailLog f).health = s.health := rfl
@[simp] theorem putRailLog_nextId (f : RailLog → RailLog) : (s.putRailLog f).nextId = s.nextId := rfl
@[simp] theorem putRailLog_free (f : RailLog → RailLog) : (s.putRailLog f).free = s.free := rfl
@[simp] theorem putRailLog_out (f : RailLog → RailLog) : (s.putRailLog f).out = s.out := rfl
@[simp] theorem putRailLog_pending (f : RailLog → RailLog) : (s.putRailLog f).pending = s.pending := rfl

/-! ### What the changed field becomes -/

@[simp] theorem emit_out (o : Out) : (s.emit o).out = o :: s.out := rfl
@[simp] theorem draw_free : s.draw.2.free = s.free + 1 := rfl
@[simp] theorem draw_fst : s.draw.1 = s.free := rfl

/-- A head after one head is changed. -/
theorem head_updHead (p q : Port) (f : Head → Head) : (s.updHead p f).head q = if q = p then f (s.head p) else s.head q := by
  unfold State.head State.updHead
  simp only [Fin.getElem_fin, Vector.getElem_set]
  by_cases h : q = p
  · subst h; simp
  · have : ¬ p.val = q.val := fun e => h (Fin.ext e.symm)
    simp [h, this]

@[simp] theorem head_updHead_self (p : Port) (f : Head → Head) : (s.updHead p f).head p = f (s.head p) := by simp [head_updHead]

theorem head_updHead_ne {p q : Port} (f : Head → Head) (h : q ≠ p) : (s.updHead p f).head q = s.head q := by simp [head_updHead, h]

@[simp] theorem head_mapHeads (q : Port) (f : Head → Head) : (s.mapHeads f).head q = f (s.head q) := by
  simp [State.head, State.mapHeads]

/-- A slice after one slice is changed. -/
theorem slice_updSlice (k q : SliceId) (f : Slice → Slice) : (s.updSlice k f).slice q = if q = k then f (s.slice k) else s.slice q := by
  unfold State.slice State.updSlice
  simp only [Fin.getElem_fin, Vector.getElem_set]
  by_cases h : q = k
  · subst h; simp
  · have : ¬ k.val = q.val := fun e => h (Fin.ext e.symm)
    simp [h, this]

@[simp] theorem slice_updSlice_self (k : SliceId) (f : Slice → Slice) : (s.updSlice k f).slice k = f (s.slice k) := by simp [slice_updSlice]

theorem slice_updSlice_ne {k q : SliceId} (f : Slice → Slice) (h : q ≠ k) : (s.updSlice k f).slice q = s.slice q := by simp [slice_updSlice, h]

@[simp] theorem slice_mapSlices (q : SliceId) (f : Slice → Slice) : (s.mapSlices f).slice q = f (s.slice q) := by
  simp [State.slice, State.mapSlices]

@[simp] theorem updFront_slice_self (k : SliceId) (f : Front → Front) : ((s.updFront k f).slice k) = { s.slice k with front := f (s.slice k).front } := by
  simp [State.updFront]

@[simp] theorem updMedia_slice_self (k : SliceId) (f : Media → Media) : ((s.updMedia k f).slice k) = { s.slice k with media := f (s.slice k).media } := by
  simp [State.updMedia]

theorem updFront_slice_ne {k q : SliceId} (f : Front → Front) (h : q ≠ k) : (s.updFront k f).slice q = s.slice q := by
  simp [State.updFront, slice_updSlice, h]

theorem updMedia_slice_ne {k q : SliceId} (f : Media → Media) (h : q ≠ k) : (s.updMedia k f).slice q = s.slice q := by
  simp [State.updMedia, slice_updSlice, h]

/-- A channel after one channel is changed. -/
theorem chan_updChan (k q : SliceId) (j i : ChanId) (f : Chan → Chan) :
    (s.updChan k j f).chan q i = if q = k ∧ i = j then f (s.chan k j) else s.chan q i := by
  have hs : ∀ (t : State) (a : SliceId) (b : ChanId), t.chan a b = (t.slice a).chans[b] := fun _ _ _ => rfl
  simp only [hs, State.updChan, slice_updSlice]
  by_cases h : q = k
  · subst h
    simp only [if_true, Slice.updChan, true_and, Fin.getElem_fin, Vector.getElem_set]
    by_cases h' : i = j
    · subst h'; simp
    · have : ¬ j.val = i.val := fun e => h' (Fin.ext e.symm)
      simp [h', this]
  · simp [h]

@[simp] theorem chan_updChan_self (k : SliceId) (j : ChanId) (f : Chan → Chan) : (s.updChan k j f).chan k j = f (s.chan k j) := by
  simp [chan_updChan]

/-- Only the counters of slice k change when an event is counted. -/
theorem slice_count (k q : SliceId) (ev : BitVec 12) (n : Nat) :
    (s.count k ev n).slice q = if q = k then { s.slice k with counters := countIn (s.slice k).counters ev none n } else s.slice q := by
  simp [State.count, slice_updSlice]

@[simp] theorem count_slice_st (k q : SliceId) (ev : BitVec 12) (n : Nat) : ((s.count k ev n).slice q).st = (s.slice q).st := by
  rw [slice_count]; split <;> simp_all
@[simp] theorem count_slice_ok (k q : SliceId) (ev : BitVec 12) (n : Nat) : ((s.count k ev n).slice q).ok = (s.slice q).ok := by
  rw [slice_count]; split <;> simp_all
@[simp] theorem count_slice_clkAlive (k q : SliceId) (ev : BitVec 12) (n : Nat) : ((s.count k ev n).slice q).clkAlive = (s.slice q).clkAlive := by
  rw [slice_count]; split <;> simp_all
@[simp] theorem count_slice_backupClk (k q : SliceId) (ev : BitVec 12) (n : Nat) : ((s.count k ev n).slice q).backupClk = (s.slice q).backupClk := by
  rw [slice_count]; split <;> simp_all
@[simp] theorem count_slice_quiesce (k q : SliceId) (ev : BitVec 12) (n : Nat) : ((s.count k ev n).slice q).quiesce = (s.slice q).quiesce := by
  rw [slice_count]; split <;> simp_all
@[simp] theorem count_slice_quiescedAt (k q : SliceId) (ev : BitVec 12) (n : Nat) : ((s.count k ev n).slice q).quiescedAt = (s.slice q).quiescedAt := by
  rw [slice_count]; split <;> simp_all
@[simp] theorem count_slice_todo (k q : SliceId) (ev : BitVec 12) (n : Nat) : ((s.count k ev n).slice q).todo = (s.slice q).todo := by
  rw [slice_count]; split <;> simp_all
@[simp] theorem count_slice_cache (k q : SliceId) (ev : BitVec 12) (n : Nat) : ((s.count k ev n).slice q).cache = (s.slice q).cache := by
  rw [slice_count]; split <;> simp_all
@[simp] theorem count_slice_cacheTree (k q : SliceId) (ev : BitVec 12) (n : Nat) : ((s.count k ev n).slice q).cacheTree = (s.slice q).cacheTree := by
  rw [slice_count]; split <;> simp_all
@[simp] theorem count_slice_cacheOn (k q : SliceId) (ev : BitVec 12) (n : Nat) : ((s.count k ev n).slice q).cacheOn = (s.slice q).cacheOn := by
  rw [slice_count]; split <;> simp_all
@[simp] theorem count_slice_fill (k q : SliceId) (ev : BitVec 12) (n : Nat) : ((s.count k ev n).slice q).fill = (s.slice q).fill := by
  rw [slice_count]; split <;> simp_all
@[simp] theorem count_slice_waiting (k q : SliceId) (ev : BitVec 12) (n : Nat) : ((s.count k ev n).slice q).waiting = (s.slice q).waiting := by
  rw [slice_count]; split <;> simp_all
@[simp] theorem count_slice_heldReqs (k q : SliceId) (ev : BitVec 12) (n : Nat) : ((s.count k ev n).slice q).heldReqs = (s.slice q).heldReqs := by
  rw [slice_count]; split <;> simp_all
@[simp] theorem count_slice_front (k q : SliceId) (ev : BitVec 12) (n : Nat) : ((s.count k ev n).slice q).front = (s.slice q).front := by
  rw [slice_count]; split <;> simp_all
@[simp] theorem count_slice_media (k q : SliceId) (ev : BitVec 12) (n : Nat) : ((s.count k ev n).slice q).media = (s.slice q).media := by
  rw [slice_count]; split <;> simp_all
@[simp] theorem count_slice_chans (k q : SliceId) (ev : BitVec 12) (n : Nat) : ((s.count k ev n).slice q).chans = (s.slice q).chans := by
  rw [slice_count]; split <;> simp_all
@[simp] theorem count_slice_pacer (k q : SliceId) (ev : BitVec 12) (n : Nat) : ((s.count k ev n).slice q).pacer = (s.slice q).pacer := by
  rw [slice_count]; split <;> simp_all
@[simp] theorem count_slice_tree (k q : SliceId) (ev : BitVec 12) (n : Nat) : ((s.count k ev n).slice q).tree = (s.slice q).tree := by
  rw [slice_count]; split <;> simp_all
@[simp] theorem count_slice_reads (k q : SliceId) (ev : BitVec 12) (n : Nat) : ((s.count k ev n).slice q).reads = (s.slice q).reads := by
  rw [slice_count]; split <;> simp_all
@[simp] theorem count_slice_holding (k q : SliceId) (ev : BitVec 12) (n : Nat) : ((s.count k ev n).slice q).holding = (s.slice q).holding := by
  rw [slice_count]; split <;> simp_all
@[simp] theorem count_slice_lens (k q : SliceId) (ev : BitVec 12) (n : Nat) : ((s.count k ev n).slice q).lens = (s.slice q).lens := by
  rw [slice_count]; split <;> simp_all
@[simp] theorem count_slice_ctrPending (k q : SliceId) (ev : BitVec 12) (n : Nat) : ((s.count k ev n).slice q).ctrPending = (s.slice q).ctrPending := by
  rw [slice_count]; split <;> simp_all
@[simp] theorem count_slice_pct (k q : SliceId) (ev : BitVec 12) (n : Nat) : ((s.count k ev n).slice q).pct = (s.slice q).pct := by
  rw [slice_count]; split <;> simp_all
@[simp] theorem count_slice_samples (k q : SliceId) (ev : BitVec 12) (n : Nat) : ((s.count k ev n).slice q).samples = (s.slice q).samples := by
  rw [slice_count]; split <;> simp_all
@[simp] theorem count_slice_sensorFailed (k q : SliceId) (ev : BitVec 12) (n : Nat) : ((s.count k ev n).slice q).sensorFailed = (s.slice q).sensorFailed := by
  rw [slice_count]; split <;> simp_all
@[simp] theorem count_slice_sramBand (k q : SliceId) (ev : BitVec 12) (n : Nat) : ((s.count k ev n).slice q).sramBand = (s.slice q).sramBand := by
  rw [slice_count]; split <;> simp_all
@[simp] theorem count_slice_sramSet (k q : SliceId) (ev : BitVec 12) (n : Nat) : ((s.count k ev n).slice q).sramSet = (s.slice q).sramSet := by
  rw [slice_count]; split <;> simp_all
@[simp] theorem count_slice_rho (k q : SliceId) (ev : BitVec 12) (n : Nat) : ((s.count k ev n).slice q).rho = (s.slice q).rho := by
  rw [slice_count]; split <;> simp_all
@[simp] theorem count_slice_flushed (k q : SliceId) (ev : BitVec 12) (n : Nat) : ((s.count k ev n).slice q).flushed = (s.slice q).flushed := by
  rw [slice_count]; split <;> simp_all
@[simp] theorem count_slice_passTodo (k q : SliceId) (ev : BitVec 12) (n : Nat) : ((s.count k ev n).slice q).passTodo = (s.slice q).passTodo := by
  rw [slice_count]; split <;> simp_all
@[simp] theorem count_slice_snap (k q : SliceId) (ev : BitVec 12) (n : Nat) : ((s.count k ev n).slice q).snap = (s.slice q).snap := by
  rw [slice_count]; split <;> simp_all

@[simp] theorem count_chan (k q : SliceId) (j : ChanId) (ev : BitVec 12) (n : Nat) : (s.count k ev n).chan q j = s.chan q j :=
  congrArg (fun x => x[j]) (count_slice_chans s k q ev n)

@[simp] theorem emit_head (o : Out) (p : Port) : (s.emit o).head p = s.head p := rfl
@[simp] theorem emit_slice (o : Out) (k : SliceId) : (s.emit o).slice k = s.slice k := rfl
@[simp] theorem draw_head (p : Port) : s.draw.2.head p = s.head p := rfl
@[simp] theorem draw_slice (k : SliceId) : s.draw.2.slice k = s.slice k := rfl
@[simp] theorem updHead_slice (p : Port) (f : Head → Head) (k : SliceId) : (s.updHead p f).slice k = s.slice k := rfl
@[simp] theorem mapHeads_slice (f : Head → Head) (k : SliceId) : (s.mapHeads f).slice k = s.slice k := rfl
@[simp] theorem updSlice_head (k : SliceId) (f : Slice → Slice) (p : Port) : (s.updSlice k f).head p = s.head p := rfl
@[simp] theorem updChan_head (k : SliceId) (j : ChanId) (f : Chan → Chan) (p : Port) : (s.updChan k j f).head p = s.head p := rfl
@[simp] theorem updFront_head (k : SliceId) (f : Front → Front) (p : Port) : (s.updFront k f).head p = s.head p := rfl
@[simp] theorem updMedia_head (k : SliceId) (f : Media → Media) (p : Port) : (s.updMedia k f).head p = s.head p := rfl
@[simp] theorem count_head (k : SliceId) (ev : BitVec 12) (n : Nat) (p : Port) : (s.count k ev n).head p = s.head p := rfl

/-! ### Build facts under every update -/

theorem present_of_fused {s t : State} (h : t.fused = s.fused) (k : Fin 8) : t.present k = s.present k := by
  unfold State.present State.nSlices; rw [h]

theorem sliceIds_of_fused {s t : State} (h : t.fused = s.fused) : t.sliceIds = s.sliceIds := by
  unfold State.sliceIds; congr 1; funext k; exact present_of_fused h k

@[simp] theorem emit_present (o : Out) (q : Fin 8) : (s.emit o).present q = s.present q := rfl
@[simp] theorem emit_sliceIds (o : Out) : (s.emit o).sliceIds = s.sliceIds := rfl
@[simp] theorem draw_present  (q : Fin 8) : (s.draw.2).present q = s.present q := rfl
@[simp] theorem draw_sliceIds  : (s.draw.2).sliceIds = s.sliceIds := rfl
@[simp] theorem updHead_present (p : Port) (f : Head → Head) (q : Fin 8) : (s.updHead p f).present q = s.present q := rfl
@[simp] theorem updHead_sliceIds (p : Port) (f : Head → Head) : (s.updHead p f).sliceIds = s.sliceIds := rfl
@[simp] theorem mapHeads_present (f : Head → Head) (q : Fin 8) : (s.mapHeads f).present q = s.present q := rfl
@[simp] theorem mapHeads_sliceIds (f : Head → Head) : (s.mapHeads f).sliceIds = s.sliceIds := rfl
@[simp] theorem updSlice_present (k : SliceId) (f : Slice → Slice) (q : Fin 8) : (s.updSlice k f).present q = s.present q := rfl
@[simp] theorem updSlice_sliceIds (k : SliceId) (f : Slice → Slice) : (s.updSlice k f).sliceIds = s.sliceIds := rfl
@[simp] theorem mapSlices_present (f : Slice → Slice) (q : Fin 8) : (s.mapSlices f).present q = s.present q := rfl
@[simp] theorem mapSlices_sliceIds (f : Slice → Slice) : (s.mapSlices f).sliceIds = s.sliceIds := rfl
@[simp] theorem updFront_present (k : SliceId) (f : Front → Front) (q : Fin 8) : (s.updFront k f).present q = s.present q := rfl
@[simp] theorem updFront_sliceIds (k : SliceId) (f : Front → Front) : (s.updFront k f).sliceIds = s.sliceIds := rfl
@[simp] theorem updMedia_present (k : SliceId) (f : Media → Media) (q : Fin 8) : (s.updMedia k f).present q = s.present q := rfl
@[simp] theorem updMedia_sliceIds (k : SliceId) (f : Media → Media) : (s.updMedia k f).sliceIds = s.sliceIds := rfl
@[simp] theorem updChan_present (k : SliceId) (j : ChanId) (f : Chan → Chan) (q : Fin 8) : (s.updChan k j f).present q = s.present q := rfl
@[simp] theorem updChan_sliceIds (k : SliceId) (j : ChanId) (f : Chan → Chan) : (s.updChan k j f).sliceIds = s.sliceIds := rfl
@[simp] theorem count_present (k : SliceId) (ev : BitVec 12) (n : Nat) (q : Fin 8) : (s.count k ev n).present q = s.present q := rfl
@[simp] theorem count_sliceIds (k : SliceId) (ev : BitVec 12) (n : Nat) : (s.count k ev n).sliceIds = s.sliceIds := rfl
@[simp] theorem countSlot_present (k : SliceId) (j : ChanId) (ev : BitVec 12) (n : Nat) (q : Fin 8) : (s.countSlot k j ev n).present q = s.present q := rfl
@[simp] theorem countSlot_sliceIds (k : SliceId) (j : ChanId) (ev : BitVec 12) (n : Nat) : (s.countSlot k j ev n).sliceIds = s.sliceIds := rfl
@[simp] theorem addError_present (i : Fin 8) (n : Nat) (q : Fin 8) : (s.addError i n).present q = s.present q := rfl
@[simp] theorem addError_sliceIds (i : Fin 8) (n : Nat) : (s.addError i n).sliceIds = s.sliceIds := rfl
@[simp] theorem putTime_present (f : TimeRec → TimeRec) (q : Fin 8) : (s.putTime f).present q = s.present q := rfl
@[simp] theorem putTime_sliceIds (f : TimeRec → TimeRec) : (s.putTime f).sliceIds = s.sliceIds := rfl
@[simp] theorem putOps_present (f : OpsRec → OpsRec) (q : Fin 8) : (s.putOps f).present q = s.present q := rfl
@[simp] theorem putOps_sliceIds (f : OpsRec → OpsRec) : (s.putOps f).sliceIds = s.sliceIds := rfl
@[simp] theorem putRailLog_present (f : RailLog → RailLog) (q : Fin 8) : (s.putRailLog f).present q = s.present q := rfl
@[simp] theorem putRailLog_sliceIds (f : RailLog → RailLog) : (s.putRailLog f).sliceIds = s.sliceIds := rfl

/-- A projection that every step of a fold keeps is kept by the fold. -/
theorem foldl_keeps {α β γ : Type} (g : β → γ) (f : β → α → β) (h : ∀ b a, g (f b a) = g b) (l : List α) (b : β) : g (l.foldl f b) = g b := by
  induction l generalizing b with
  | nil => rfl
  | cons a l ih => rw [List.foldl_cons, ih, h]

end Sys2Proof.Machine
end

