-- ==== Sys2Proof/Laws/Ops.lean ====
section
/-! SUPPORT. What each shared operation can change: every other field of the state is as before. -/

namespace Sys2Proof.Machine

variable (s : State)

/-! ### msix -/

@[simp] theorem msix_fused (p : Port) (v : Fin 8) : (s.msix p v).fused = s.fused := by
  unfold State.msix; split <;> rfl
@[simp] theorem msix_slices (p : Port) (v : Fin 8) : (s.msix p v).slices = s.slices := by
  unfold State.msix; split <;> rfl
@[simp] theorem msix_desc (p : Port) (v : Fin 8) : (s.msix p v).desc = s.desc := by
  unfold State.msix; split <;> rfl
@[simp] theorem msix_index (p : Port) (v : Fin 8) : (s.msix p v).index = s.index := by
  unfold State.msix; split <;> rfl
@[simp] theorem msix_discards (p : Port) (v : Fin 8) : (s.msix p v).discards = s.discards := by
  unfold State.msix; split <;> rfl
@[simp] theorem msix_chunks (p : Port) (v : Fin 8) : (s.msix p v).chunks = s.chunks := by
  unfold State.msix; split <;> rfl
@[simp] theorem msix_beat (p : Port) (v : Fin 8) : (s.msix p v).beat = s.beat := by
  unfold State.msix; split <;> rfl
@[simp] theorem msix_rst (p : Port) (v : Fin 8) : (s.msix p v).rst = s.rst := by
  unfold State.msix; split <;> rfl
@[simp] theorem msix_power (p : Port) (v : Fin 8) : (s.msix p v).power = s.power := by
  unfold State.msix; split <;> rfl
@[simp] theorem msix_led (p : Port) (v : Fin 8) : (s.msix p v).led = s.led := by
  unfold State.msix; split <;> rfl
@[simp] theorem msix_shadow (p : Port) (v : Fin 8) : (s.msix p v).shadow = s.shadow := by
  unfold State.msix; split <;> rfl
@[simp] theorem msix_profNo (p : Port) (v : Fin 8) : (s.msix p v).profNo = s.profNo := by
  unfold State.msix; split <;> rfl
@[simp] theorem msix_profRom (p : Port) (v : Fin 8) : (s.msix p v).profRom = s.profRom := by
  unfold State.msix; split <;> rfl
@[simp] theorem msix_prof (p : Port) (v : Fin 8) : (s.msix p v).prof = s.prof := by
  unfold State.msix; split <;> rfl
@[simp] theorem msix_firm (p : Port) (v : Fin 8) : (s.msix p v).firm = s.firm := by
  unfold State.msix; split <;> rfl
@[simp] theorem msix_keys (p : Port) (v : Fin 8) : (s.msix p v).keys = s.keys := by
  unfold State.msix; split <;> rfl
@[simp] theorem msix_health (p : Port) (v : Fin 8) : (s.msix p v).health = s.health := by
  unfold State.msix; split <;> rfl
@[simp] theorem msix_nextId (p : Port) (v : Fin 8) : (s.msix p v).nextId = s.nextId := by
  unfold State.msix; split <;> rfl
@[simp] theorem msix_free (p : Port) (v : Fin 8) : (s.msix p v).free = s.free := by
  unfold State.msix; split <;> rfl
@[simp] theorem msix_pending (p : Port) (v : Fin 8) : (s.msix p v).pending = s.pending := by
  unfold State.msix; split <;> rfl
@[simp] theorem msix_present (p : Port) (v : Fin 8) (q : Fin 8) : (s.msix p v).present q = s.present q := present_of_fused (s := s) (t := s.msix p v) (msix_fused ..) q
@[simp] theorem msix_sliceIds (p : Port) (v : Fin 8) : (s.msix p v).sliceIds = s.sliceIds := sliceIds_of_fused (s := s) (t := s.msix p v) (msix_fused ..)
@[simp] theorem msix_slice (p : Port) (v : Fin 8) (q : SliceId) : (s.msix p v).slice q = s.slice q := congrArg (fun v : Vector Slice 8 => v[q]) (msix_slices ..)
@[simp] theorem msix_chan (p : Port) (v : Fin 8) (q : SliceId) (ch : ChanId) : (s.msix p v).chan q ch = s.chan q ch := congrArg (fun v : Vector Slice 8 => (v[q]).chans[ch]) (msix_slices ..)

/-! ### msixAll -/

@[simp] theorem msixAll_fused (v : Fin 8) : (s.msixAll v).fused = s.fused := by
  exact foldl_keeps State.fused _ (fun _ _ => msix_fused ..) _ _
@[simp] theorem msixAll_slices (v : Fin 8) : (s.msixAll v).slices = s.slices := by
  exact foldl_keeps State.slices _ (fun _ _ => msix_slices ..) _ _
@[simp] theorem msixAll_desc (v : Fin 8) : (s.msixAll v).desc = s.desc := by
  exact foldl_keeps State.desc _ (fun _ _ => msix_desc ..) _ _
@[simp] theorem msixAll_index (v : Fin 8) : (s.msixAll v).index = s.index := by
  exact foldl_keeps State.index _ (fun _ _ => msix_index ..) _ _
@[simp] theorem msixAll_discards (v : Fin 8) : (s.msixAll v).discards = s.discards := by
  exact foldl_keeps State.discards _ (fun _ _ => msix_discards ..) _ _
@[simp] theorem msixAll_chunks (v : Fin 8) : (s.msixAll v).chunks = s.chunks := by
  exact foldl_keeps State.chunks _ (fun _ _ => msix_chunks ..) _ _
@[simp] theorem msixAll_beat (v : Fin 8) : (s.msixAll v).beat = s.beat := by
  exact foldl_keeps State.beat _ (fun _ _ => msix_beat ..) _ _
@[simp] theorem msixAll_rst (v : Fin 8) : (s.msixAll v).rst = s.rst := by
  exact foldl_keeps State.rst _ (fun _ _ => msix_rst ..) _ _
@[simp] theorem msixAll_power (v : Fin 8) : (s.msixAll v).power = s.power := by
  exact foldl_keeps State.power _ (fun _ _ => msix_power ..) _ _
@[simp] theorem msixAll_led (v : Fin 8) : (s.msixAll v).led = s.led := by
  exact foldl_keeps State.led _ (fun _ _ => msix_led ..) _ _
@[simp] theorem msixAll_shadow (v : Fin 8) : (s.msixAll v).shadow = s.shadow := by
  exact foldl_keeps State.shadow _ (fun _ _ => msix_shadow ..) _ _
@[simp] theorem msixAll_profNo (v : Fin 8) : (s.msixAll v).profNo = s.profNo := by
  exact foldl_keeps State.profNo _ (fun _ _ => msix_profNo ..) _ _
@[simp] theorem msixAll_profRom (v : Fin 8) : (s.msixAll v).profRom = s.profRom := by
  exact foldl_keeps State.profRom _ (fun _ _ => msix_profRom ..) _ _
@[simp] theorem msixAll_prof (v : Fin 8) : (s.msixAll v).prof = s.prof := by
  exact foldl_keeps State.prof _ (fun _ _ => msix_prof ..) _ _
@[simp] theorem msixAll_firm (v : Fin 8) : (s.msixAll v).firm = s.firm := by
  exact foldl_keeps State.firm _ (fun _ _ => msix_firm ..) _ _
@[simp] theorem msixAll_keys (v : Fin 8) : (s.msixAll v).keys = s.keys := by
  exact foldl_keeps State.keys _ (fun _ _ => msix_keys ..) _ _
@[simp] theorem msixAll_health (v : Fin 8) : (s.msixAll v).health = s.health := by
  exact foldl_keeps State.health _ (fun _ _ => msix_health ..) _ _
@[simp] theorem msixAll_nextId (v : Fin 8) : (s.msixAll v).nextId = s.nextId := by
  exact foldl_keeps State.nextId _ (fun _ _ => msix_nextId ..) _ _
@[simp] theorem msixAll_free (v : Fin 8) : (s.msixAll v).free = s.free := by
  exact foldl_keeps State.free _ (fun _ _ => msix_free ..) _ _
@[simp] theorem msixAll_pending (v : Fin 8) : (s.msixAll v).pending = s.pending := by
  exact foldl_keeps State.pending _ (fun _ _ => msix_pending ..) _ _
@[simp] theorem msixAll_present (v : Fin 8) (q : Fin 8) : (s.msixAll v).present q = s.present q := present_of_fused (s := s) (t := s.msixAll v) (msixAll_fused ..) q
@[simp] theorem msixAll_sliceIds (v : Fin 8) : (s.msixAll v).sliceIds = s.sliceIds := sliceIds_of_fused (s := s) (t := s.msixAll v) (msixAll_fused ..)
@[simp] theorem msixAll_slice (v : Fin 8) (q : SliceId) : (s.msixAll v).slice q = s.slice q := congrArg (fun v : Vector Slice 8 => v[q]) (msixAll_slices ..)
@[simp] theorem msixAll_chan (v : Fin 8) (q : SliceId) (ch : ChanId) : (s.msixAll v).chan q ch = s.chan q ch := congrArg (fun v : Vector Slice 8 => (v[q]).chans[ch]) (msixAll_slices ..)

/-! ### enterLog -/

@[simp] theorem enterLog_fused (p : Port) (log : LogId) (r : EvRec) : (s.enterLog p log r).fused = s.fused := by
  unfold State.enterLog; extract_lets; split <;> first | exact msix_fused .. | rfl
@[simp] theorem enterLog_slices (p : Port) (log : LogId) (r : EvRec) : (s.enterLog p log r).slices = s.slices := by
  unfold State.enterLog; extract_lets; split <;> first | exact msix_slices .. | rfl
@[simp] theorem enterLog_desc (p : Port) (log : LogId) (r : EvRec) : (s.enterLog p log r).desc = s.desc := by
  unfold State.enterLog; extract_lets; split <;> first | exact msix_desc .. | rfl
@[simp] theorem enterLog_index (p : Port) (log : LogId) (r : EvRec) : (s.enterLog p log r).index = s.index := by
  unfold State.enterLog; extract_lets; split <;> first | exact msix_index .. | rfl
@[simp] theorem enterLog_discards (p : Port) (log : LogId) (r : EvRec) : (s.enterLog p log r).discards = s.discards := by
  unfold State.enterLog; extract_lets; split <;> first | exact msix_discards .. | rfl
@[simp] theorem enterLog_chunks (p : Port) (log : LogId) (r : EvRec) : (s.enterLog p log r).chunks = s.chunks := by
  unfold State.enterLog; extract_lets; split <;> first | exact msix_chunks .. | rfl
@[simp] theorem enterLog_beat (p : Port) (log : LogId) (r : EvRec) : (s.enterLog p log r).beat = s.beat := by
  unfold State.enterLog; extract_lets; split <;> first | exact msix_beat .. | rfl
@[simp] theorem enterLog_rst (p : Port) (log : LogId) (r : EvRec) : (s.enterLog p log r).rst = s.rst := by
  unfold State.enterLog; extract_lets; split <;> first | exact msix_rst .. | rfl
@[simp] theorem enterLog_power (p : Port) (log : LogId) (r : EvRec) : (s.enterLog p log r).power = s.power := by
  unfold State.enterLog; extract_lets; split <;> first | exact msix_power .. | rfl
@[simp] theorem enterLog_led (p : Port) (log : LogId) (r : EvRec) : (s.enterLog p log r).led = s.led := by
  unfold State.enterLog; extract_lets; split <;> first | exact msix_led .. | rfl
@[simp] theorem enterLog_shadow (p : Port) (log : LogId) (r : EvRec) : (s.enterLog p log r).shadow = s.shadow := by
  unfold State.enterLog; extract_lets; split <;> first | exact msix_shadow .. | rfl
@[simp] theorem enterLog_profNo (p : Port) (log : LogId) (r : EvRec) : (s.enterLog p log r).profNo = s.profNo := by
  unfold State.enterLog; extract_lets; split <;> first | exact msix_profNo .. | rfl
@[simp] theorem enterLog_profRom (p : Port) (log : LogId) (r : EvRec) : (s.enterLog p log r).profRom = s.profRom := by
  unfold State.enterLog; extract_lets; split <;> first | exact msix_profRom .. | rfl
@[simp] theorem enterLog_prof (p : Port) (log : LogId) (r : EvRec) : (s.enterLog p log r).prof = s.prof := by
  unfold State.enterLog; extract_lets; split <;> first | exact msix_prof .. | rfl
@[simp] theorem enterLog_keys (p : Port) (log : LogId) (r : EvRec) : (s.enterLog p log r).keys = s.keys := by
  unfold State.enterLog; extract_lets; split <;> first | exact msix_keys .. | rfl
@[simp] theorem enterLog_health (p : Port) (log : LogId) (r : EvRec) : (s.enterLog p log r).health = s.health := by
  unfold State.enterLog; extract_lets; split <;> first | exact msix_health .. | rfl
@[simp] theorem enterLog_nextId (p : Port) (log : LogId) (r : EvRec) : (s.enterLog p log r).nextId = s.nextId := by
  unfold State.enterLog; extract_lets; split <;> first | exact msix_nextId .. | rfl
@[simp] theorem enterLog_free (p : Port) (log : LogId) (r : EvRec) : (s.enterLog p log r).free = s.free := by
  unfold State.enterLog; extract_lets; split <;> first | exact msix_free .. | rfl
@[simp] theorem enterLog_pending (p : Port) (log : LogId) (r : EvRec) : (s.enterLog p log r).pending = s.pending := by
  unfold State.enterLog; extract_lets; split <;> first | exact msix_pending .. | rfl
@[simp] theorem enterLog_present (p : Port) (log : LogId) (r : EvRec) (q : Fin 8) : (s.enterLog p log r).present q = s.present q := present_of_fused (s := s) (t := s.enterLog p log r) (enterLog_fused ..) q
@[simp] theorem enterLog_sliceIds (p : Port) (log : LogId) (r : EvRec) : (s.enterLog p log r).sliceIds = s.sliceIds := sliceIds_of_fused (s := s) (t := s.enterLog p log r) (enterLog_fused ..)
@[simp] theorem enterLog_slice (p : Port) (log : LogId) (r : EvRec) (q : SliceId) : (s.enterLog p log r).slice q = s.slice q := congrArg (fun v : Vector Slice 8 => v[q]) (enterLog_slices ..)
@[simp] theorem enterLog_chan (p : Port) (log : LogId) (r : EvRec) (q : SliceId) (ch : ChanId) : (s.enterLog p log r).chan q ch = s.chan q ch := congrArg (fun v : Vector Slice 8 => (v[q]).chans[ch]) (enterLog_slices ..)

/-! ### raise -/

@[simp] theorem raise_fused (hs : List Port) (log : LogId) (r : EvRec) : (s.raise hs log r).fused = s.fused := by
  unfold State.raise; split
  · exact foldl_keeps State.fused _ (fun _ _ => by dsimp only; split <;> rfl) _ _
  · exact foldl_keeps State.fused _ (fun _ _ => enterLog_fused ..) _ _
@[simp] theorem raise_slices (hs : List Port) (log : LogId) (r : EvRec) : (s.raise hs log r).slices = s.slices := by
  unfold State.raise; split
  · exact foldl_keeps State.slices _ (fun _ _ => by dsimp only; split <;> rfl) _ _
  · exact foldl_keeps State.slices _ (fun _ _ => enterLog_slices ..) _ _
@[simp] theorem raise_desc (hs : List Port) (log : LogId) (r : EvRec) : (s.raise hs log r).desc = s.desc := by
  unfold State.raise; split
  · exact foldl_keeps State.desc _ (fun _ _ => by dsimp only; split <;> rfl) _ _
  · exact foldl_keeps State.desc _ (fun _ _ => enterLog_desc ..) _ _
@[simp] theorem raise_index (hs : List Port) (log : LogId) (r : EvRec) : (s.raise hs log r).index = s.index := by
  unfold State.raise; split
  · exact foldl_keeps State.index _ (fun _ _ => by dsimp only; split <;> rfl) _ _
  · exact foldl_keeps State.index _ (fun _ _ => enterLog_index ..) _ _
@[simp] theorem raise_discards (hs : List Port) (log : LogId) (r : EvRec) : (s.raise hs log r).discards = s.discards := by
  unfold State.raise; split
  · exact foldl_keeps State.discards _ (fun _ _ => by dsimp only; split <;> rfl) _ _
  · exact foldl_keeps State.discards _ (fun _ _ => enterLog_discards ..) _ _
@[simp] theorem raise_chunks (hs : List Port) (log : LogId) (r : EvRec) : (s.raise hs log r).chunks = s.chunks := by
  unfold State.raise; split
  · exact foldl_keeps State.chunks _ (fun _ _ => by dsimp only; split <;> rfl) _ _
  · exact foldl_keeps State.chunks _ (fun _ _ => enterLog_chunks ..) _ _
@[simp] theorem raise_beat (hs : List Port) (log : LogId) (r : EvRec) : (s.raise hs log r).beat = s.beat := by
  unfold State.raise; split
  · exact foldl_keeps State.beat _ (fun _ _ => by dsimp only; split <;> rfl) _ _
  · exact foldl_keeps State.beat _ (fun _ _ => enterLog_beat ..) _ _
@[simp] theorem raise_power (hs : List Port) (log : LogId) (r : EvRec) : (s.raise hs log r).power = s.power := by
  unfold State.raise; split
  · exact foldl_keeps State.power _ (fun _ _ => by dsimp only; split <;> rfl) _ _
  · exact foldl_keeps State.power _ (fun _ _ => enterLog_power ..) _ _
@[simp] theorem raise_led (hs : List Port) (log : LogId) (r : EvRec) : (s.raise hs log r).led = s.led := by
  unfold State.raise; split
  · exact foldl_keeps State.led _ (fun _ _ => by dsimp only; split <;> rfl) _ _
  · exact foldl_keeps State.led _ (fun _ _ => enterLog_led ..) _ _
@[simp] theorem raise_shadow (hs : List Port) (log : LogId) (r : EvRec) : (s.raise hs log r).shadow = s.shadow := by
  unfold State.raise; split
  · exact foldl_keeps State.shadow _ (fun _ _ => by dsimp only; split <;> rfl) _ _
  · exact foldl_keeps State.shadow _ (fun _ _ => enterLog_shadow ..) _ _
@[simp] theorem raise_profNo (hs : List Port) (log : LogId) (r : EvRec) : (s.raise hs log r).profNo = s.profNo := by
  unfold State.raise; split
  · exact foldl_keeps State.profNo _ (fun _ _ => by dsimp only; split <;> rfl) _ _
  · exact foldl_keeps State.profNo _ (fun _ _ => enterLog_profNo ..) _ _
@[simp] theorem raise_profRom (hs : List Port) (log : LogId) (r : EvRec) : (s.raise hs log r).profRom = s.profRom := by
  unfold State.raise; split
  · exact foldl_keeps State.profRom _ (fun _ _ => by dsimp only; split <;> rfl) _ _
  · exact foldl_keeps State.profRom _ (fun _ _ => enterLog_profRom ..) _ _
@[simp] theorem raise_prof (hs : List Port) (log : LogId) (r : EvRec) : (s.raise hs log r).prof = s.prof := by
  unfold State.raise; split
  · exact foldl_keeps State.prof _ (fun _ _ => by dsimp only; split <;> rfl) _ _
  · exact foldl_keeps State.prof _ (fun _ _ => enterLog_prof ..) _ _
@[simp] theorem raise_keys (hs : List Port) (log : LogId) (r : EvRec) : (s.raise hs log r).keys = s.keys := by
  unfold State.raise; split
  · exact foldl_keeps State.keys _ (fun _ _ => by dsimp only; split <;> rfl) _ _
  · exact foldl_keeps State.keys _ (fun _ _ => enterLog_keys ..) _ _
@[simp] theorem raise_health (hs : List Port) (log : LogId) (r : EvRec) : (s.raise hs log r).health = s.health := by
  unfold State.raise; split
  · exact foldl_keeps State.health _ (fun _ _ => by dsimp only; split <;> rfl) _ _
  · exact foldl_keeps State.health _ (fun _ _ => enterLog_health ..) _ _
@[simp] theorem raise_nextId (hs : List Port) (log : LogId) (r : EvRec) : (s.raise hs log r).nextId = s.nextId := by
  unfold State.raise; split
  · exact foldl_keeps State.nextId _ (fun _ _ => by dsimp only; split <;> rfl) _ _
  · exact foldl_keeps State.nextId _ (fun _ _ => enterLog_nextId ..) _ _
@[simp] theorem raise_free (hs : List Port) (log : LogId) (r : EvRec) : (s.raise hs log r).free = s.free := by
  unfold State.raise; split
  · exact foldl_keeps State.free _ (fun _ _ => by dsimp only; split <;> rfl) _ _
  · exact foldl_keeps State.free _ (fun _ _ => enterLog_free ..) _ _
@[simp] theorem raise_pending (hs : List Port) (log : LogId) (r : EvRec) : (s.raise hs log r).pending = s.pending := by
  unfold State.raise; split
  · exact foldl_keeps State.pending _ (fun _ _ => by dsimp only; split <;> rfl) _ _
  · exact foldl_keeps State.pending _ (fun _ _ => enterLog_pending ..) _ _
@[simp] theorem raise_present (hs : List Port) (log : LogId) (r : EvRec) (q : Fin 8) : (s.raise hs log r).present q = s.present q := present_of_fused (s := s) (t := s.raise hs log r) (raise_fused ..) q
@[simp] theorem raise_sliceIds (hs : List Port) (log : LogId) (r : EvRec) : (s.raise hs log r).sliceIds = s.sliceIds := sliceIds_of_fused (s := s) (t := s.raise hs log r) (raise_fused ..)
@[simp] theorem raise_slice (hs : List Port) (log : LogId) (r : EvRec) (q : SliceId) : (s.raise hs log r).slice q = s.slice q := congrArg (fun v : Vector Slice 8 => v[q]) (raise_slices ..)
@[simp] theorem raise_chan (hs : List Port) (log : LogId) (r : EvRec) (q : SliceId) (ch : ChanId) : (s.raise hs log r).chan q ch = s.chan q ch := congrArg (fun v : Vector Slice 8 => (v[q]).chans[ch]) (raise_slices ..)

/-! ### vendorAll -/

@[simp] theorem vendorAll_fused (log : LogId) (code slice unit sub addr v1 v2 : Nat) : (s.vendorAll log code slice unit sub addr v1 v2).fused = s.fused := by
  exact raise_fused ..
@[simp] theorem vendorAll_slices (log : LogId) (code slice unit sub addr v1 v2 : Nat) : (s.vendorAll log code slice unit sub addr v1 v2).slices = s.slices := by
  exact raise_slices ..
@[simp] theorem vendorAll_desc (log : LogId) (code slice unit sub addr v1 v2 : Nat) : (s.vendorAll log code slice unit sub addr v1 v2).desc = s.desc := by
  exact raise_desc ..
@[simp] theorem vendorAll_index (log : LogId) (code slice unit sub addr v1 v2 : Nat) : (s.vendorAll log code slice unit sub addr v1 v2).index = s.index := by
  exact raise_index ..
@[simp] theorem vendorAll_discards (log : LogId) (code slice unit sub addr v1 v2 : Nat) : (s.vendorAll log code slice unit sub addr v1 v2).discards = s.discards := by
  exact raise_discards ..
@[simp] theorem vendorAll_chunks (log : LogId) (code slice unit sub addr v1 v2 : Nat) : (s.vendorAll log code slice unit sub addr v1 v2).chunks = s.chunks := by
  exact raise_chunks ..
@[simp] theorem vendorAll_beat (log : LogId) (code slice unit sub addr v1 v2 : Nat) : (s.vendorAll log code slice unit sub addr v1 v2).beat = s.beat := by
  exact raise_beat ..
@[simp] theorem vendorAll_power (log : LogId) (code slice unit sub addr v1 v2 : Nat) : (s.vendorAll log code slice unit sub addr v1 v2).power = s.power := by
  exact raise_power ..
@[simp] theorem vendorAll_led (log : LogId) (code slice unit sub addr v1 v2 : Nat) : (s.vendorAll log code slice unit sub addr v1 v2).led = s.led := by
  exact raise_led ..
@[simp] theorem vendorAll_shadow (log : LogId) (code slice unit sub addr v1 v2 : Nat) : (s.vendorAll log code slice unit sub addr v1 v2).shadow = s.shadow := by
  exact raise_shadow ..
@[simp] theorem vendorAll_profNo (log : LogId) (code slice unit sub addr v1 v2 : Nat) : (s.vendorAll log code slice unit sub addr v1 v2).profNo = s.profNo := by
  exact raise_profNo ..
@[simp] theorem vendorAll_profRom (log : LogId) (code slice unit sub addr v1 v2 : Nat) : (s.vendorAll log code slice unit sub addr v1 v2).profRom = s.profRom := by
  exact raise_profRom ..
@[simp] theorem vendorAll_prof (log : LogId) (code slice unit sub addr v1 v2 : Nat) : (s.vendorAll log code slice unit sub addr v1 v2).prof = s.prof := by
  exact raise_prof ..
@[simp] theorem vendorAll_keys (log : LogId) (code slice unit sub addr v1 v2 : Nat) : (s.vendorAll log code slice unit sub addr v1 v2).keys = s.keys := by
  exact raise_keys ..
@[simp] theorem vendorAll_health (log : LogId) (code slice unit sub addr v1 v2 : Nat) : (s.vendorAll log code slice unit sub addr v1 v2).health = s.health := by
  exact raise_health ..
@[simp] theorem vendorAll_nextId (log : LogId) (code slice unit sub addr v1 v2 : Nat) : (s.vendorAll log code slice unit sub addr v1 v2).nextId = s.nextId := by
  exact raise_nextId ..
@[simp] theorem vendorAll_free (log : LogId) (code slice unit sub addr v1 v2 : Nat) : (s.vendorAll log code slice unit sub addr v1 v2).free = s.free := by
  exact raise_free ..
@[simp] theorem vendorAll_pending (log : LogId) (code slice unit sub addr v1 v2 : Nat) : (s.vendorAll log code slice unit sub addr v1 v2).pending = s.pending := by
  exact raise_pending ..
@[simp] theorem vendorAll_present (log : LogId) (code slice unit sub addr v1 v2 : Nat) (q : Fin 8) : (s.vendorAll log code slice unit sub addr v1 v2).present q = s.present q := present_of_fused (s := s) (t := s.vendorAll log code slice unit sub addr v1 v2) (vendorAll_fused ..) q
@[simp] theorem vendorAll_sliceIds (log : LogId) (code slice unit sub addr v1 v2 : Nat) : (s.vendorAll log code slice unit sub addr v1 v2).sliceIds = s.sliceIds := sliceIds_of_fused (s := s) (t := s.vendorAll log code slice unit sub addr v1 v2) (vendorAll_fused ..)
@[simp] theorem vendorAll_slice (log : LogId) (code slice unit sub addr v1 v2 : Nat) (q : SliceId) : (s.vendorAll log code slice unit sub addr v1 v2).slice q = s.slice q := congrArg (fun v : Vector Slice 8 => v[q]) (vendorAll_slices ..)
@[simp] theorem vendorAll_chan (log : LogId) (code slice unit sub addr v1 v2 : Nat) (q : SliceId) (ch : ChanId) : (s.vendorAll log code slice unit sub addr v1 v2).chan q ch = s.chan q ch := congrArg (fun v : Vector Slice 8 => (v[q]).chans[ch]) (vendorAll_slices ..)

/-! ### vendorOne -/

@[simp] theorem vendorOne_fused (p : Port) (log : LogId) (code slice unit sub addr v1 v2 : Nat) : (s.vendorOne p log code slice unit sub addr v1 v2).fused = s.fused := by
  exact raise_fused ..
@[simp] theorem vendorOne_slices (p : Port) (log : LogId) (code slice unit sub addr v1 v2 : Nat) : (s.vendorOne p log code slice unit sub addr v1 v2).slices = s.slices := by
  exact raise_slices ..
@[simp] theorem vendorOne_desc (p : Port) (log : LogId) (code slice unit sub addr v1 v2 : Nat) : (s.vendorOne p log code slice unit sub addr v1 v2).desc = s.desc := by
  exact raise_desc ..
@[simp] theorem vendorOne_index (p : Port) (log : LogId) (code slice unit sub addr v1 v2 : Nat) : (s.vendorOne p log code slice unit sub addr v1 v2).index = s.index := by
  exact raise_index ..
@[simp] theorem vendorOne_discards (p : Port) (log : LogId) (code slice unit sub addr v1 v2 : Nat) : (s.vendorOne p log code slice unit sub addr v1 v2).discards = s.discards := by
  exact raise_discards ..
@[simp] theorem vendorOne_chunks (p : Port) (log : LogId) (code slice unit sub addr v1 v2 : Nat) : (s.vendorOne p log code slice unit sub addr v1 v2).chunks = s.chunks := by
  exact raise_chunks ..
@[simp] theorem vendorOne_beat (p : Port) (log : LogId) (code slice unit sub addr v1 v2 : Nat) : (s.vendorOne p log code slice unit sub addr v1 v2).beat = s.beat := by
  exact raise_beat ..
@[simp] theorem vendorOne_power (p : Port) (log : LogId) (code slice unit sub addr v1 v2 : Nat) : (s.vendorOne p log code slice unit sub addr v1 v2).power = s.power := by
  exact raise_power ..
@[simp] theorem vendorOne_led (p : Port) (log : LogId) (code slice unit sub addr v1 v2 : Nat) : (s.vendorOne p log code slice unit sub addr v1 v2).led = s.led := by
  exact raise_led ..
@[simp] theorem vendorOne_shadow (p : Port) (log : LogId) (code slice unit sub addr v1 v2 : Nat) : (s.vendorOne p log code slice unit sub addr v1 v2).shadow = s.shadow := by
  exact raise_shadow ..
@[simp] theorem vendorOne_profNo (p : Port) (log : LogId) (code slice unit sub addr v1 v2 : Nat) : (s.vendorOne p log code slice unit sub addr v1 v2).profNo = s.profNo := by
  exact raise_profNo ..
@[simp] theorem vendorOne_profRom (p : Port) (log : LogId) (code slice unit sub addr v1 v2 : Nat) : (s.vendorOne p log code slice unit sub addr v1 v2).profRom = s.profRom := by
  exact raise_profRom ..
@[simp] theorem vendorOne_prof (p : Port) (log : LogId) (code slice unit sub addr v1 v2 : Nat) : (s.vendorOne p log code slice unit sub addr v1 v2).prof = s.prof := by
  exact raise_prof ..
@[simp] theorem vendorOne_keys (p : Port) (log : LogId) (code slice unit sub addr v1 v2 : Nat) : (s.vendorOne p log code slice unit sub addr v1 v2).keys = s.keys := by
  exact raise_keys ..
@[simp] theorem vendorOne_health (p : Port) (log : LogId) (code slice unit sub addr v1 v2 : Nat) : (s.vendorOne p log code slice unit sub addr v1 v2).health = s.health := by
  exact raise_health ..
@[simp] theorem vendorOne_nextId (p : Port) (log : LogId) (code slice unit sub addr v1 v2 : Nat) : (s.vendorOne p log code slice unit sub addr v1 v2).nextId = s.nextId := by
  exact raise_nextId ..
@[simp] theorem vendorOne_free (p : Port) (log : LogId) (code slice unit sub addr v1 v2 : Nat) : (s.vendorOne p log code slice unit sub addr v1 v2).free = s.free := by
  exact raise_free ..
@[simp] theorem vendorOne_pending (p : Port) (log : LogId) (code slice unit sub addr v1 v2 : Nat) : (s.vendorOne p log code slice unit sub addr v1 v2).pending = s.pending := by
  exact raise_pending ..
@[simp] theorem vendorOne_present (p : Port) (log : LogId) (code slice unit sub addr v1 v2 : Nat) (q : Fin 8) : (s.vendorOne p log code slice unit sub addr v1 v2).present q = s.present q := present_of_fused (s := s) (t := s.vendorOne p log code slice unit sub addr v1 v2) (vendorOne_fused ..) q
@[simp] theorem vendorOne_sliceIds (p : Port) (log : LogId) (code slice unit sub addr v1 v2 : Nat) : (s.vendorOne p log code slice unit sub addr v1 v2).sliceIds = s.sliceIds := sliceIds_of_fused (s := s) (t := s.vendorOne p log code slice unit sub addr v1 v2) (vendorOne_fused ..)
@[simp] theorem vendorOne_slice (p : Port) (log : LogId) (code slice unit sub addr v1 v2 : Nat) (q : SliceId) : (s.vendorOne p log code slice unit sub addr v1 v2).slice q = s.slice q := congrArg (fun v : Vector Slice 8 => v[q]) (vendorOne_slices ..)
@[simp] theorem vendorOne_chan (p : Port) (log : LogId) (code slice unit sub addr v1 v2 : Nat) (q : SliceId) (ch : ChanId) : (s.vendorOne p log code slice unit sub addr v1 v2).chan q ch = s.chan q ch := congrArg (fun v : Vector Slice 8 => (v[q]).chans[ch]) (vendorOne_slices ..)

/-! ### mediaRecord -/

@[simp] theorem mediaRecord_fused (issuer : Option Port) (dpa slice unit rank dev ty : Nat) : (s.mediaRecord issuer dpa slice unit rank dev ty).fused = s.fused := by
  exact raise_fused ..
@[simp] theorem mediaRecord_slices (issuer : Option Port) (dpa slice unit rank dev ty : Nat) : (s.mediaRecord issuer dpa slice unit rank dev ty).slices = s.slices := by
  exact raise_slices ..
@[simp] theorem mediaRecord_desc (issuer : Option Port) (dpa slice unit rank dev ty : Nat) : (s.mediaRecord issuer dpa slice unit rank dev ty).desc = s.desc := by
  exact raise_desc ..
@[simp] theorem mediaRecord_index (issuer : Option Port) (dpa slice unit rank dev ty : Nat) : (s.mediaRecord issuer dpa slice unit rank dev ty).index = s.index := by
  exact raise_index ..
@[simp] theorem mediaRecord_discards (issuer : Option Port) (dpa slice unit rank dev ty : Nat) : (s.mediaRecord issuer dpa slice unit rank dev ty).discards = s.discards := by
  exact raise_discards ..
@[simp] theorem mediaRecord_chunks (issuer : Option Port) (dpa slice unit rank dev ty : Nat) : (s.mediaRecord issuer dpa slice unit rank dev ty).chunks = s.chunks := by
  exact raise_chunks ..
@[simp] theorem mediaRecord_beat (issuer : Option Port) (dpa slice unit rank dev ty : Nat) : (s.mediaRecord issuer dpa slice unit rank dev ty).beat = s.beat := by
  exact raise_beat ..
@[simp] theorem mediaRecord_power (issuer : Option Port) (dpa slice unit rank dev ty : Nat) : (s.mediaRecord issuer dpa slice unit rank dev ty).power = s.power := by
  exact raise_power ..
@[simp] theorem mediaRecord_led (issuer : Option Port) (dpa slice unit rank dev ty : Nat) : (s.mediaRecord issuer dpa slice unit rank dev ty).led = s.led := by
  exact raise_led ..
@[simp] theorem mediaRecord_shadow (issuer : Option Port) (dpa slice unit rank dev ty : Nat) : (s.mediaRecord issuer dpa slice unit rank dev ty).shadow = s.shadow := by
  exact raise_shadow ..
@[simp] theorem mediaRecord_profNo (issuer : Option Port) (dpa slice unit rank dev ty : Nat) : (s.mediaRecord issuer dpa slice unit rank dev ty).profNo = s.profNo := by
  exact raise_profNo ..
@[simp] theorem mediaRecord_profRom (issuer : Option Port) (dpa slice unit rank dev ty : Nat) : (s.mediaRecord issuer dpa slice unit rank dev ty).profRom = s.profRom := by
  exact raise_profRom ..
@[simp] theorem mediaRecord_prof (issuer : Option Port) (dpa slice unit rank dev ty : Nat) : (s.mediaRecord issuer dpa slice unit rank dev ty).prof = s.prof := by
  exact raise_prof ..
@[simp] theorem mediaRecord_keys (issuer : Option Port) (dpa slice unit rank dev ty : Nat) : (s.mediaRecord issuer dpa slice unit rank dev ty).keys = s.keys := by
  exact raise_keys ..
@[simp] theorem mediaRecord_health (issuer : Option Port) (dpa slice unit rank dev ty : Nat) : (s.mediaRecord issuer dpa slice unit rank dev ty).health = s.health := by
  exact raise_health ..
@[simp] theorem mediaRecord_nextId (issuer : Option Port) (dpa slice unit rank dev ty : Nat) : (s.mediaRecord issuer dpa slice unit rank dev ty).nextId = s.nextId := by
  exact raise_nextId ..
@[simp] theorem mediaRecord_free (issuer : Option Port) (dpa slice unit rank dev ty : Nat) : (s.mediaRecord issuer dpa slice unit rank dev ty).free = s.free := by
  exact raise_free ..
@[simp] theorem mediaRecord_pending (issuer : Option Port) (dpa slice unit rank dev ty : Nat) : (s.mediaRecord issuer dpa slice unit rank dev ty).pending = s.pending := by
  exact raise_pending ..
@[simp] theorem mediaRecord_present (issuer : Option Port) (dpa slice unit rank dev ty : Nat) (q : Fin 8) : (s.mediaRecord issuer dpa slice unit rank dev ty).present q = s.present q := present_of_fused (s := s) (t := s.mediaRecord issuer dpa slice unit rank dev ty) (mediaRecord_fused ..) q
@[simp] theorem mediaRecord_sliceIds (issuer : Option Port) (dpa slice unit rank dev ty : Nat) : (s.mediaRecord issuer dpa slice unit rank dev ty).sliceIds = s.sliceIds := sliceIds_of_fused (s := s) (t := s.mediaRecord issuer dpa slice unit rank dev ty) (mediaRecord_fused ..)
@[simp] theorem mediaRecord_slice (issuer : Option Port) (dpa slice unit rank dev ty : Nat) (q : SliceId) : (s.mediaRecord issuer dpa slice unit rank dev ty).slice q = s.slice q := congrArg (fun v : Vector Slice 8 => v[q]) (mediaRecord_slices ..)
@[simp] theorem mediaRecord_chan (issuer : Option Port) (dpa slice unit rank dev ty : Nat) (q : SliceId) (ch : ChanId) : (s.mediaRecord issuer dpa slice unit rank dev ty).chan q ch = s.chan q ch := congrArg (fun v : Vector Slice 8 => (v[q]).chans[ch]) (mediaRecord_slices ..)

/-! ### moduleRecord -/

@[simp] theorem moduleRecord_fused (what : Nat) : (s.moduleRecord what).fused = s.fused := by
  exact raise_fused ..
@[simp] theorem moduleRecord_slices (what : Nat) : (s.moduleRecord what).slices = s.slices := by
  exact raise_slices ..
@[simp] theorem moduleRecord_desc (what : Nat) : (s.moduleRecord what).desc = s.desc := by
  exact raise_desc ..
@[simp] theorem moduleRecord_index (what : Nat) : (s.moduleRecord what).index = s.index := by
  exact raise_index ..
@[simp] theorem moduleRecord_discards (what : Nat) : (s.moduleRecord what).discards = s.discards := by
  exact raise_discards ..
@[simp] theorem moduleRecord_chunks (what : Nat) : (s.moduleRecord what).chunks = s.chunks := by
  exact raise_chunks ..
@[simp] theorem moduleRecord_beat (what : Nat) : (s.moduleRecord what).beat = s.beat := by
  exact raise_beat ..
@[simp] theorem moduleRecord_power (what : Nat) : (s.moduleRecord what).power = s.power := by
  exact raise_power ..
@[simp] theorem moduleRecord_led (what : Nat) : (s.moduleRecord what).led = s.led := by
  exact raise_led ..
@[simp] theorem moduleRecord_shadow (what : Nat) : (s.moduleRecord what).shadow = s.shadow := by
  exact raise_shadow ..
@[simp] theorem moduleRecord_profNo (what : Nat) : (s.moduleRecord what).profNo = s.profNo := by
  exact raise_profNo ..
@[simp] theorem moduleRecord_profRom (what : Nat) : (s.moduleRecord what).profRom = s.profRom := by
  exact raise_profRom ..
@[simp] theorem moduleRecord_prof (what : Nat) : (s.moduleRecord what).prof = s.prof := by
  exact raise_prof ..
@[simp] theorem moduleRecord_keys (what : Nat) : (s.moduleRecord what).keys = s.keys := by
  exact raise_keys ..
@[simp] theorem moduleRecord_health (what : Nat) : (s.moduleRecord what).health = s.health := by
  exact raise_health ..
@[simp] theorem moduleRecord_nextId (what : Nat) : (s.moduleRecord what).nextId = s.nextId := by
  exact raise_nextId ..
@[simp] theorem moduleRecord_free (what : Nat) : (s.moduleRecord what).free = s.free := by
  exact raise_free ..
@[simp] theorem moduleRecord_pending (what : Nat) : (s.moduleRecord what).pending = s.pending := by
  exact raise_pending ..
@[simp] theorem moduleRecord_present (what : Nat) (q : Fin 8) : (s.moduleRecord what).present q = s.present q := present_of_fused (s := s) (t := s.moduleRecord what) (moduleRecord_fused ..) q
@[simp] theorem moduleRecord_sliceIds (what : Nat) : (s.moduleRecord what).sliceIds = s.sliceIds := sliceIds_of_fused (s := s) (t := s.moduleRecord what) (moduleRecord_fused ..)
@[simp] theorem moduleRecord_slice (what : Nat) (q : SliceId) : (s.moduleRecord what).slice q = s.slice q := congrArg (fun v : Vector Slice 8 => v[q]) (moduleRecord_slices ..)
@[simp] theorem moduleRecord_chan (what : Nat) (q : SliceId) (ch : ChanId) : (s.moduleRecord what).chan q ch = s.chan q ch := congrArg (fun v : Vector Slice 8 => (v[q]).chans[ch]) (moduleRecord_slices ..)

/-! ### vendorLimited -/

@[simp] theorem vendorLimited_fused (p : Port) (log : LogId) (code sub slice unit addr v1 v2 : Nat) : (s.vendorLimited p log code sub slice unit addr v1 v2).fused = s.fused := by
  unfold State.vendorLimited; extract_lets; split
  · split
    · rfl
    · exact raise_fused ..
  · exact raise_fused ..
@[simp] theorem vendorLimited_slices (p : Port) (log : LogId) (code sub slice unit addr v1 v2 : Nat) : (s.vendorLimited p log code sub slice unit addr v1 v2).slices = s.slices := by
  unfold State.vendorLimited; extract_lets; split
  · split
    · rfl
    · exact raise_slices ..
  · exact raise_slices ..
@[simp] theorem vendorLimited_desc (p : Port) (log : LogId) (code sub slice unit addr v1 v2 : Nat) : (s.vendorLimited p log code sub slice unit addr v1 v2).desc = s.desc := by
  unfold State.vendorLimited; extract_lets; split
  · split
    · rfl
    · exact raise_desc ..
  · exact raise_desc ..
@[simp] theorem vendorLimited_index (p : Port) (log : LogId) (code sub slice unit addr v1 v2 : Nat) : (s.vendorLimited p log code sub slice unit addr v1 v2).index = s.index := by
  unfold State.vendorLimited; extract_lets; split
  · split
    · rfl
    · exact raise_index ..
  · exact raise_index ..
@[simp] theorem vendorLimited_discards (p : Port) (log : LogId) (code sub slice unit addr v1 v2 : Nat) : (s.vendorLimited p log code sub slice unit addr v1 v2).discards = s.discards := by
  unfold State.vendorLimited; extract_lets; split
  · split
    · rfl
    · exact raise_discards ..
  · exact raise_discards ..
@[simp] theorem vendorLimited_chunks (p : Port) (log : LogId) (code sub slice unit addr v1 v2 : Nat) : (s.vendorLimited p log code sub slice unit addr v1 v2).chunks = s.chunks := by
  unfold State.vendorLimited; extract_lets; split
  · split
    · rfl
    · exact raise_chunks ..
  · exact raise_chunks ..
@[simp] theorem vendorLimited_beat (p : Port) (log : LogId) (code sub slice unit addr v1 v2 : Nat) : (s.vendorLimited p log code sub slice unit addr v1 v2).beat = s.beat := by
  unfold State.vendorLimited; extract_lets; split
  · split
    · rfl
    · exact raise_beat ..
  · exact raise_beat ..
@[simp] theorem vendorLimited_power (p : Port) (log : LogId) (code sub slice unit addr v1 v2 : Nat) : (s.vendorLimited p log code sub slice unit addr v1 v2).power = s.power := by
  unfold State.vendorLimited; extract_lets; split
  · split
    · rfl
    · exact raise_power ..
  · exact raise_power ..
@[simp] theorem vendorLimited_led (p : Port) (log : LogId) (code sub slice unit addr v1 v2 : Nat) : (s.vendorLimited p log code sub slice unit addr v1 v2).led = s.led := by
  unfold State.vendorLimited; extract_lets; split
  · split
    · rfl
    · exact raise_led ..
  · exact raise_led ..
@[simp] theorem vendorLimited_shadow (p : Port) (log : LogId) (code sub slice unit addr v1 v2 : Nat) : (s.vendorLimited p log code sub slice unit addr v1 v2).shadow = s.shadow := by
  unfold State.vendorLimited; extract_lets; split
  · split
    · rfl
    · exact raise_shadow ..
  · exact raise_shadow ..
@[simp] theorem vendorLimited_profNo (p : Port) (log : LogId) (code sub slice unit addr v1 v2 : Nat) : (s.vendorLimited p log code sub slice unit addr v1 v2).profNo = s.profNo := by
  unfold State.vendorLimited; extract_lets; split
  · split
    · rfl
    · exact raise_profNo ..
  · exact raise_profNo ..
@[simp] theorem vendorLimited_profRom (p : Port) (log : LogId) (code sub slice unit addr v1 v2 : Nat) : (s.vendorLimited p log code sub slice unit addr v1 v2).profRom = s.profRom := by
  unfold State.vendorLimited; extract_lets; split
  · split
    · rfl
    · exact raise_profRom ..
  · exact raise_profRom ..
@[simp] theorem vendorLimited_prof (p : Port) (log : LogId) (code sub slice unit addr v1 v2 : Nat) : (s.vendorLimited p log code sub slice unit addr v1 v2).prof = s.prof := by
  unfold State.vendorLimited; extract_lets; split
  · split
    · rfl
    · exact raise_prof ..
  · exact raise_prof ..
@[simp] theorem vendorLimited_keys (p : Port) (log : LogId) (code sub slice unit addr v1 v2 : Nat) : (s.vendorLimited p log code sub slice unit addr v1 v2).keys = s.keys := by
  unfold State.vendorLimited; extract_lets; split
  · split
    · rfl
    · exact raise_keys ..
  · exact raise_keys ..
@[simp] theorem vendorLimited_health (p : Port) (log : LogId) (code sub slice unit addr v1 v2 : Nat) : (s.vendorLimited p log code sub slice unit addr v1 v2).health = s.health := by
  unfold State.vendorLimited; extract_lets; split
  · split
    · rfl
    · exact raise_health ..
  · exact raise_health ..
@[simp] theorem vendorLimited_nextId (p : Port) (log : LogId) (code sub slice unit addr v1 v2 : Nat) : (s.vendorLimited p log code sub slice unit addr v1 v2).nextId = s.nextId := by
  unfold State.vendorLimited; extract_lets; split
  · split
    · rfl
    · exact raise_nextId ..
  · exact raise_nextId ..
@[simp] theorem vendorLimited_free (p : Port) (log : LogId) (code sub slice unit addr v1 v2 : Nat) : (s.vendorLimited p log code sub slice unit addr v1 v2).free = s.free := by
  unfold State.vendorLimited; extract_lets; split
  · split
    · rfl
    · exact raise_free ..
  · exact raise_free ..
@[simp] theorem vendorLimited_pending (p : Port) (log : LogId) (code sub slice unit addr v1 v2 : Nat) : (s.vendorLimited p log code sub slice unit addr v1 v2).pending = s.pending := by
  unfold State.vendorLimited; extract_lets; split
  · split
    · rfl
    · exact raise_pending ..
  · exact raise_pending ..
@[simp] theorem vendorLimited_present (p : Port) (log : LogId) (code sub slice unit addr v1 v2 : Nat) (q : Fin 8) : (s.vendorLimited p log code sub slice unit addr v1 v2).present q = s.present q := present_of_fused (s := s) (t := s.vendorLimited p log code sub slice unit addr v1 v2) (vendorLimited_fused ..) q
@[simp] theorem vendorLimited_sliceIds (p : Port) (log : LogId) (code sub slice unit addr v1 v2 : Nat) : (s.vendorLimited p log code sub slice unit addr v1 v2).sliceIds = s.sliceIds := sliceIds_of_fused (s := s) (t := s.vendorLimited p log code sub slice unit addr v1 v2) (vendorLimited_fused ..)
@[simp] theorem vendorLimited_slice (p : Port) (log : LogId) (code sub slice unit addr v1 v2 : Nat) (q : SliceId) : (s.vendorLimited p log code sub slice unit addr v1 v2).slice q = s.slice q := congrArg (fun v : Vector Slice 8 => v[q]) (vendorLimited_slices ..)
@[simp] theorem vendorLimited_chan (p : Port) (log : LogId) (code sub slice unit addr v1 v2 : Nat) (q : SliceId) (ch : ChanId) : (s.vendorLimited p log code sub slice unit addr v1 v2).chan q ch = s.chan q ch := congrArg (fun v : Vector Slice 8 => (v[q]).chans[ch]) (vendorLimited_slices ..)

/-! ### alarm -/

@[simp] theorem alarm_fused (cause slice addr v2 : Nat) : (s.alarm cause slice addr v2).fused = s.fused := by
  unfold State.alarm; extract_lets
  refine (msixAll_fused ..).trans ?_
  show State.fused (ite _ _ _) = _
  split <;> exact vendorAll_fused ..
@[simp] theorem alarm_slices (cause slice addr v2 : Nat) : (s.alarm cause slice addr v2).slices = s.slices := by
  unfold State.alarm; extract_lets
  refine (msixAll_slices ..).trans ?_
  show State.slices (ite _ _ _) = _
  split <;> exact vendorAll_slices ..
@[simp] theorem alarm_desc (cause slice addr v2 : Nat) : (s.alarm cause slice addr v2).desc = s.desc := by
  unfold State.alarm; extract_lets
  refine (msixAll_desc ..).trans ?_
  show State.desc (ite _ _ _) = _
  split <;> exact vendorAll_desc ..
@[simp] theorem alarm_index (cause slice addr v2 : Nat) : (s.alarm cause slice addr v2).index = s.index := by
  unfold State.alarm; extract_lets
  refine (msixAll_index ..).trans ?_
  show State.index (ite _ _ _) = _
  split <;> exact vendorAll_index ..
@[simp] theorem alarm_discards (cause slice addr v2 : Nat) : (s.alarm cause slice addr v2).discards = s.discards := by
  unfold State.alarm; extract_lets
  refine (msixAll_discards ..).trans ?_
  show State.discards (ite _ _ _) = _
  split <;> exact vendorAll_discards ..
@[simp] theorem alarm_chunks (cause slice addr v2 : Nat) : (s.alarm cause slice addr v2).chunks = s.chunks := by
  unfold State.alarm; extract_lets
  refine (msixAll_chunks ..).trans ?_
  show State.chunks (ite _ _ _) = _
  split <;> exact vendorAll_chunks ..
@[simp] theorem alarm_beat (cause slice addr v2 : Nat) : (s.alarm cause slice addr v2).beat = s.beat := by
  unfold State.alarm; extract_lets
  refine (msixAll_beat ..).trans ?_
  show State.beat (ite _ _ _) = _
  split <;> exact vendorAll_beat ..
@[simp] theorem alarm_led (cause slice addr v2 : Nat) : (s.alarm cause slice addr v2).led = s.led := by
  unfold State.alarm; extract_lets
  refine (msixAll_led ..).trans ?_
  show State.led (ite _ _ _) = _
  split <;> exact vendorAll_led ..
@[simp] theorem alarm_shadow (cause slice addr v2 : Nat) : (s.alarm cause slice addr v2).shadow = s.shadow := by
  unfold State.alarm; extract_lets
  refine (msixAll_shadow ..).trans ?_
  show State.shadow (ite _ _ _) = _
  split <;> exact vendorAll_shadow ..
@[simp] theorem alarm_profNo (cause slice addr v2 : Nat) : (s.alarm cause slice addr v2).profNo = s.profNo := by
  unfold State.alarm; extract_lets
  refine (msixAll_profNo ..).trans ?_
  show State.profNo (ite _ _ _) = _
  split <;> exact vendorAll_profNo ..
@[simp] theorem alarm_profRom (cause slice addr v2 : Nat) : (s.alarm cause slice addr v2).profRom = s.profRom := by
  unfold State.alarm; extract_lets
  refine (msixAll_profRom ..).trans ?_
  show State.profRom (ite _ _ _) = _
  split <;> exact vendorAll_profRom ..
@[simp] theorem alarm_prof (cause slice addr v2 : Nat) : (s.alarm cause slice addr v2).prof = s.prof := by
  unfold State.alarm; extract_lets
  refine (msixAll_prof ..).trans ?_
  show State.prof (ite _ _ _) = _
  split <;> exact vendorAll_prof ..
@[simp] theorem alarm_keys (cause slice addr v2 : Nat) : (s.alarm cause slice addr v2).keys = s.keys := by
  unfold State.alarm; extract_lets
  refine (msixAll_keys ..).trans ?_
  show State.keys (ite _ _ _) = _
  split <;> exact vendorAll_keys ..
@[simp] theorem alarm_nextId (cause slice addr v2 : Nat) : (s.alarm cause slice addr v2).nextId = s.nextId := by
  unfold State.alarm; extract_lets
  refine (msixAll_nextId ..).trans ?_
  show State.nextId (ite _ _ _) = _
  split <;> exact vendorAll_nextId ..
@[simp] theorem alarm_free (cause slice addr v2 : Nat) : (s.alarm cause slice addr v2).free = s.free := by
  unfold State.alarm; extract_lets
  refine (msixAll_free ..).trans ?_
  show State.free (ite _ _ _) = _
  split <;> exact vendorAll_free ..
@[simp] theorem alarm_pending (cause slice addr v2 : Nat) : (s.alarm cause slice addr v2).pending = s.pending := by
  unfold State.alarm; extract_lets
  refine (msixAll_pending ..).trans ?_
  show State.pending (ite _ _ _) = _
  split <;> exact vendorAll_pending ..
@[simp] theorem alarm_present (cause slice addr v2 : Nat) (q : Fin 8) : (s.alarm cause slice addr v2).present q = s.present q := present_of_fused (s := s) (t := s.alarm cause slice addr v2) (alarm_fused ..) q
@[simp] theorem alarm_sliceIds (cause slice addr v2 : Nat) : (s.alarm cause slice addr v2).sliceIds = s.sliceIds := sliceIds_of_fused (s := s) (t := s.alarm cause slice addr v2) (alarm_fused ..)
@[simp] theorem alarm_slice (cause slice addr v2 : Nat) (q : SliceId) : (s.alarm cause slice addr v2).slice q = s.slice q := congrArg (fun v : Vector Slice 8 => v[q]) (alarm_slices ..)
@[simp] theorem alarm_chan (cause slice addr v2 : Nat) (q : SliceId) (ch : ChanId) : (s.alarm cause slice addr v2).chan q ch = s.chan q ch := congrArg (fun v : Vector Slice 8 => (v[q]).chans[ch]) (alarm_slices ..)

/-! ### setReplace -/

@[simp] theorem setReplace_fused (i : Fin 7) : (s.setReplace i).fused = s.fused := by
  unfold State.setReplace; split
  · rfl
  · extract_lets
    refine (vendorAll_fused ..).trans ?_
    show State.fused (ite _ _ _) = _
    split <;> rfl
@[simp] theorem setReplace_slices (i : Fin 7) : (s.setReplace i).slices = s.slices := by
  unfold State.setReplace; split
  · rfl
  · extract_lets
    refine (vendorAll_slices ..).trans ?_
    show State.slices (ite _ _ _) = _
    split <;> rfl
@[simp] theorem setReplace_desc (i : Fin 7) : (s.setReplace i).desc = s.desc := by
  unfold State.setReplace; split
  · rfl
  · extract_lets
    refine (vendorAll_desc ..).trans ?_
    show State.desc (ite _ _ _) = _
    split <;> rfl
@[simp] theorem setReplace_index (i : Fin 7) : (s.setReplace i).index = s.index := by
  unfold State.setReplace; split
  · rfl
  · extract_lets
    refine (vendorAll_index ..).trans ?_
    show State.index (ite _ _ _) = _
    split <;> rfl
@[simp] theorem setReplace_discards (i : Fin 7) : (s.setReplace i).discards = s.discards := by
  unfold State.setReplace; split
  · rfl
  · extract_lets
    refine (vendorAll_discards ..).trans ?_
    show State.discards (ite _ _ _) = _
    split <;> rfl
@[simp] theorem setReplace_chunks (i : Fin 7) : (s.setReplace i).chunks = s.chunks := by
  unfold State.setReplace; split
  · rfl
  · extract_lets
    refine (vendorAll_chunks ..).trans ?_
    show State.chunks (ite _ _ _) = _
    split <;> rfl
@[simp] theorem setReplace_beat (i : Fin 7) : (s.setReplace i).beat = s.beat := by
  unfold State.setReplace; split
  · rfl
  · extract_lets
    refine (vendorAll_beat ..).trans ?_
    show State.beat (ite _ _ _) = _
    split <;> rfl
@[simp] theorem setReplace_led (i : Fin 7) : (s.setReplace i).led = s.led := by
  unfold State.setReplace; split
  · rfl
  · extract_lets
    refine (vendorAll_led ..).trans ?_
    show State.led (ite _ _ _) = _
    split <;> rfl
@[simp] theorem setReplace_shadow (i : Fin 7) : (s.setReplace i).shadow = s.shadow := by
  unfold State.setReplace; split
  · rfl
  · extract_lets
    refine (vendorAll_shadow ..).trans ?_
    show State.shadow (ite _ _ _) = _
    split <;> rfl
@[simp] theorem setReplace_profNo (i : Fin 7) : (s.setReplace i).profNo = s.profNo := by
  unfold State.setReplace; split
  · rfl
  · extract_lets
    refine (vendorAll_profNo ..).trans ?_
    show State.profNo (ite _ _ _) = _
    split <;> rfl
@[simp] theorem setReplace_profRom (i : Fin 7) : (s.setReplace i).profRom = s.profRom := by
  unfold State.setReplace; split
  · rfl
  · extract_lets
    refine (vendorAll_profRom ..).trans ?_
    show State.profRom (ite _ _ _) = _
    split <;> rfl
@[simp] theorem setReplace_prof (i : Fin 7) : (s.setReplace i).prof = s.prof := by
  unfold State.setReplace; split
  · rfl
  · extract_lets
    refine (vendorAll_prof ..).trans ?_
    show State.prof (ite _ _ _) = _
    split <;> rfl
@[simp] theorem setReplace_keys (i : Fin 7) : (s.setReplace i).keys = s.keys := by
  unfold State.setReplace; split
  · rfl
  · extract_lets
    refine (vendorAll_keys ..).trans ?_
    show State.keys (ite _ _ _) = _
    split <;> rfl
@[simp] theorem setReplace_nextId (i : Fin 7) : (s.setReplace i).nextId = s.nextId := by
  unfold State.setReplace; split
  · rfl
  · extract_lets
    refine (vendorAll_nextId ..).trans ?_
    show State.nextId (ite _ _ _) = _
    split <;> rfl
@[simp] theorem setReplace_free (i : Fin 7) : (s.setReplace i).free = s.free := by
  unfold State.setReplace; split
  · rfl
  · extract_lets
    refine (vendorAll_free ..).trans ?_
    show State.free (ite _ _ _) = _
    split <;> rfl
@[simp] theorem setReplace_pending (i : Fin 7) : (s.setReplace i).pending = s.pending := by
  unfold State.setReplace; split
  · rfl
  · extract_lets
    refine (vendorAll_pending ..).trans ?_
    show State.pending (ite _ _ _) = _
    split <;> rfl
@[simp] theorem setReplace_present (i : Fin 7) (q : Fin 8) : (s.setReplace i).present q = s.present q := present_of_fused (s := s) (t := s.setReplace i) (setReplace_fused ..) q
@[simp] theorem setReplace_sliceIds (i : Fin 7) : (s.setReplace i).sliceIds = s.sliceIds := sliceIds_of_fused (s := s) (t := s.setReplace i) (setReplace_fused ..)
@[simp] theorem setReplace_slice (i : Fin 7) (q : SliceId) : (s.setReplace i).slice q = s.slice q := congrArg (fun v : Vector Slice 8 => v[q]) (setReplace_slices ..)
@[simp] theorem setReplace_chan (i : Fin 7) (q : SliceId) (ch : ChanId) : (s.setReplace i).chan q ch = s.chan q ch := congrArg (fun v : Vector Slice 8 => (v[q]).chans[ch]) (setReplace_slices ..)

/-! ### clearReplace -/

@[simp] theorem clearReplace_fused (i : Fin 7) : (s.clearReplace i).fused = s.fused := by
  unfold State.clearReplace; split
  · extract_lets
    split
    · rfl
    · split <;> rfl
  · rfl
@[simp] theorem clearReplace_heads (i : Fin 7) : (s.clearReplace i).heads = s.heads := by
  unfold State.clearReplace; split
  · extract_lets
    split
    · rfl
    · split <;> rfl
  · rfl
@[simp] theorem clearReplace_slices (i : Fin 7) : (s.clearReplace i).slices = s.slices := by
  unfold State.clearReplace; split
  · extract_lets
    split
    · rfl
    · split <;> rfl
  · rfl
@[simp] theorem clearReplace_desc (i : Fin 7) : (s.clearReplace i).desc = s.desc := by
  unfold State.clearReplace; split
  · extract_lets
    split
    · rfl
    · split <;> rfl
  · rfl
@[simp] theorem clearReplace_index (i : Fin 7) : (s.clearReplace i).index = s.index := by
  unfold State.clearReplace; split
  · extract_lets
    split
    · rfl
    · split <;> rfl
  · rfl
@[simp] theorem clearReplace_discards (i : Fin 7) : (s.clearReplace i).discards = s.discards := by
  unfold State.clearReplace; split
  · extract_lets
    split
    · rfl
    · split <;> rfl
  · rfl
@[simp] theorem clearReplace_chunks (i : Fin 7) : (s.clearReplace i).chunks = s.chunks := by
  unfold State.clearReplace; split
  · extract_lets
    split
    · rfl
    · split <;> rfl
  · rfl
@[simp] theorem clearReplace_beat (i : Fin 7) : (s.clearReplace i).beat = s.beat := by
  unfold State.clearReplace; split
  · extract_lets
    split
    · rfl
    · split <;> rfl
  · rfl
@[simp] theorem clearReplace_rst (i : Fin 7) : (s.clearReplace i).rst = s.rst := by
  unfold State.clearReplace; split
  · extract_lets
    split
    · rfl
    · split <;> rfl
  · rfl
@[simp] theorem clearReplace_led (i : Fin 7) : (s.clearReplace i).led = s.led := by
  unfold State.clearReplace; split
  · extract_lets
    split
    · rfl
    · split <;> rfl
  · rfl
@[simp] theorem clearReplace_shadow (i : Fin 7) : (s.clearReplace i).shadow = s.shadow := by
  unfold State.clearReplace; split
  · extract_lets
    split
    · rfl
    · split <;> rfl
  · rfl
@[simp] theorem clearReplace_profNo (i : Fin 7) : (s.clearReplace i).profNo = s.profNo := by
  unfold State.clearReplace; split
  · extract_lets
    split
    · rfl
    · split <;> rfl
  · rfl
@[simp] theorem clearReplace_profRom (i : Fin 7) : (s.clearReplace i).profRom = s.profRom := by
  unfold State.clearReplace; split
  · extract_lets
    split
    · rfl
    · split <;> rfl
  · rfl
@[simp] theorem clearReplace_prof (i : Fin 7) : (s.clearReplace i).prof = s.prof := by
  unfold State.clearReplace; split
  · extract_lets
    split
    · rfl
    · split <;> rfl
  · rfl
@[simp] theorem clearReplace_firm (i : Fin 7) : (s.clearReplace i).firm = s.firm := by
  unfold State.clearReplace; split
  · extract_lets
    split
    · rfl
    · split <;> rfl
  · rfl
@[simp] theorem clearReplace_keys (i : Fin 7) : (s.clearReplace i).keys = s.keys := by
  unfold State.clearReplace; split
  · extract_lets
    split
    · rfl
    · split <;> rfl
  · rfl
@[simp] theorem clearReplace_nextId (i : Fin 7) : (s.clearReplace i).nextId = s.nextId := by
  unfold State.clearReplace; split
  · extract_lets
    split
    · rfl
    · split <;> rfl
  · rfl
@[simp] theorem clearReplace_free (i : Fin 7) : (s.clearReplace i).free = s.free := by
  unfold State.clearReplace; split
  · extract_lets
    split
    · rfl
    · split <;> rfl
  · rfl
@[simp] theorem clearReplace_pending (i : Fin 7) : (s.clearReplace i).pending = s.pending := by
  unfold State.clearReplace; split
  · extract_lets
    split
    · rfl
    · split <;> rfl
  · rfl
@[simp] theorem clearReplace_present (i : Fin 7) (q : Fin 8) : (s.clearReplace i).present q = s.present q := present_of_fused (s := s) (t := s.clearReplace i) (clearReplace_fused ..) q
@[simp] theorem clearReplace_sliceIds (i : Fin 7) : (s.clearReplace i).sliceIds = s.sliceIds := sliceIds_of_fused (s := s) (t := s.clearReplace i) (clearReplace_fused ..)
@[simp] theorem clearReplace_slice (i : Fin 7) (q : SliceId) : (s.clearReplace i).slice q = s.slice q := congrArg (fun v : Vector Slice 8 => v[q]) (clearReplace_slices ..)
@[simp] theorem clearReplace_chan (i : Fin 7) (q : SliceId) (ch : ChanId) : (s.clearReplace i).chan q ch = s.chan q ch := congrArg (fun v : Vector Slice 8 => (v[q]).chans[ch]) (clearReplace_slices ..)
@[simp] theorem clearReplace_head (i : Fin 7) (q : Port) : (s.clearReplace i).head q = s.head q := congrArg (fun v : Vector Head 8 => v[q]) (clearReplace_heads ..)

/-! ### goViral -/

@[simp] theorem goViral_fused  : (s.goViral).fused = s.fused := by
  exact vendorAll_fused ..
@[simp] theorem goViral_slices  : (s.goViral).slices = s.slices := by
  exact vendorAll_slices ..
@[simp] theorem goViral_desc  : (s.goViral).desc = s.desc := by
  exact vendorAll_desc ..
@[simp] theorem goViral_index  : (s.goViral).index = s.index := by
  exact vendorAll_index ..
@[simp] theorem goViral_discards  : (s.goViral).discards = s.discards := by
  exact vendorAll_discards ..
@[simp] theorem goViral_chunks  : (s.goViral).chunks = s.chunks := by
  exact vendorAll_chunks ..
@[simp] theorem goViral_beat  : (s.goViral).beat = s.beat := by
  exact vendorAll_beat ..
@[simp] theorem goViral_power  : (s.goViral).power = s.power := by
  exact vendorAll_power ..
@[simp] theorem goViral_led  : (s.goViral).led = s.led := by
  exact vendorAll_led ..
@[simp] theorem goViral_shadow  : (s.goViral).shadow = s.shadow := by
  exact vendorAll_shadow ..
@[simp] theorem goViral_profNo  : (s.goViral).profNo = s.profNo := by
  exact vendorAll_profNo ..
@[simp] theorem goViral_profRom  : (s.goViral).profRom = s.profRom := by
  exact vendorAll_profRom ..
@[simp] theorem goViral_prof  : (s.goViral).prof = s.prof := by
  exact vendorAll_prof ..
@[simp] theorem goViral_keys  : (s.goViral).keys = s.keys := by
  exact vendorAll_keys ..
@[simp] theorem goViral_nextId  : (s.goViral).nextId = s.nextId := by
  exact vendorAll_nextId ..
@[simp] theorem goViral_pending  : (s.goViral).pending = s.pending := by
  exact vendorAll_pending ..
@[simp] theorem goViral_present  (q : Fin 8) : (s.goViral).present q = s.present q := present_of_fused (s := s) (t := s.goViral) (goViral_fused ..) q
@[simp] theorem goViral_sliceIds  : (s.goViral).sliceIds = s.sliceIds := sliceIds_of_fused (s := s) (t := s.goViral) (goViral_fused ..)
@[simp] theorem goViral_slice  (q : SliceId) : (s.goViral).slice q = s.slice q := congrArg (fun v : Vector Slice 8 => v[q]) (goViral_slices ..)
@[simp] theorem goViral_chan  (q : SliceId) (ch : ChanId) : (s.goViral).chan q ch = s.chan q ch := congrArg (fun v : Vector Slice 8 => (v[q]).chans[ch]) (goViral_slices ..)

/-! ### updWithheld -/

@[simp] theorem updWithheld_fused  : (s.updWithheld).fused = s.fused := by
  rfl
@[simp] theorem updWithheld_heads  : (s.updWithheld).heads = s.heads := by
  rfl
@[simp] theorem updWithheld_slices  : (s.updWithheld).slices = s.slices := by
  rfl
@[simp] theorem updWithheld_desc  : (s.updWithheld).desc = s.desc := by
  rfl
@[simp] theorem updWithheld_index  : (s.updWithheld).index = s.index := by
  rfl
@[simp] theorem updWithheld_discards  : (s.updWithheld).discards = s.discards := by
  rfl
@[simp] theorem updWithheld_chunks  : (s.updWithheld).chunks = s.chunks := by
  rfl
@[simp] theorem updWithheld_beat  : (s.updWithheld).beat = s.beat := by
  rfl
@[simp] theorem updWithheld_rst  : (s.updWithheld).rst = s.rst := by
  rfl
@[simp] theorem updWithheld_led  : (s.updWithheld).led = s.led := by
  rfl
@[simp] theorem updWithheld_shadow  : (s.updWithheld).shadow = s.shadow := by
  rfl
@[simp] theorem updWithheld_profNo  : (s.updWithheld).profNo = s.profNo := by
  rfl
@[simp] theorem updWithheld_profRom  : (s.updWithheld).profRom = s.profRom := by
  rfl
@[simp] theorem updWithheld_prof  : (s.updWithheld).prof = s.prof := by
  rfl
@[simp] theorem updWithheld_firm  : (s.updWithheld).firm = s.firm := by
  rfl
@[simp] theorem updWithheld_keys  : (s.updWithheld).keys = s.keys := by
  rfl
@[simp] theorem updWithheld_health  : (s.updWithheld).health = s.health := by
  rfl
@[simp] theorem updWithheld_nextId  : (s.updWithheld).nextId = s.nextId := by
  rfl
@[simp] theorem updWithheld_free  : (s.updWithheld).free = s.free := by
  rfl
@[simp] theorem updWithheld_out  : (s.updWithheld).out = s.out := by
  rfl
@[simp] theorem updWithheld_pending  : (s.updWithheld).pending = s.pending := by
  rfl
@[simp] theorem updWithheld_present  (q : Fin 8) : (s.updWithheld).present q = s.present q := present_of_fused (s := s) (t := s.updWithheld) (updWithheld_fused ..) q
@[simp] theorem updWithheld_sliceIds  : (s.updWithheld).sliceIds = s.sliceIds := sliceIds_of_fused (s := s) (t := s.updWithheld) (updWithheld_fused ..)
@[simp] theorem updWithheld_slice  (q : SliceId) : (s.updWithheld).slice q = s.slice q := congrArg (fun v : Vector Slice 8 => v[q]) (updWithheld_slices ..)
@[simp] theorem updWithheld_chan  (q : SliceId) (ch : ChanId) : (s.updWithheld).chan q ch = s.chan q ch := congrArg (fun v : Vector Slice 8 => (v[q]).chans[ch]) (updWithheld_slices ..)
@[simp] theorem updWithheld_head  (q : Port) : (s.updWithheld).head q = s.head q := congrArg (fun v : Vector Head 8 => v[q]) (updWithheld_heads ..)

/-! ### grantPort -/

@[simp] theorem grantPort_fused (p : Port) : (s.grantPort p).fused = s.fused := by
  unfold State.grantPort; extract_lets; split <;> rfl
@[simp] theorem grantPort_slices (p : Port) : (s.grantPort p).slices = s.slices := by
  unfold State.grantPort; extract_lets; split <;> rfl
@[simp] theorem grantPort_desc (p : Port) : (s.grantPort p).desc = s.desc := by
  unfold State.grantPort; extract_lets; split <;> rfl
@[simp] theorem grantPort_index (p : Port) : (s.grantPort p).index = s.index := by
  unfold State.grantPort; extract_lets; split <;> rfl
@[simp] theorem grantPort_discards (p : Port) : (s.grantPort p).discards = s.discards := by
  unfold State.grantPort; extract_lets; split <;> rfl
@[simp] theorem grantPort_chunks (p : Port) : (s.grantPort p).chunks = s.chunks := by
  unfold State.grantPort; extract_lets; split <;> rfl
@[simp] theorem grantPort_beat (p : Port) : (s.grantPort p).beat = s.beat := by
  unfold State.grantPort; extract_lets; split <;> rfl
@[simp] theorem grantPort_rst (p : Port) : (s.grantPort p).rst = s.rst := by
  unfold State.grantPort; extract_lets; split <;> rfl
@[simp] theorem grantPort_power (p : Port) : (s.grantPort p).power = s.power := by
  unfold State.grantPort; extract_lets; split <;> rfl
@[simp] theorem grantPort_led (p : Port) : (s.grantPort p).led = s.led := by
  unfold State.grantPort; extract_lets; split <;> rfl
@[simp] theorem grantPort_shadow (p : Port) : (s.grantPort p).shadow = s.shadow := by
  unfold State.grantPort; extract_lets; split <;> rfl
@[simp] theorem grantPort_profNo (p : Port) : (s.grantPort p).profNo = s.profNo := by
  unfold State.grantPort; extract_lets; split <;> rfl
@[simp] theorem grantPort_profRom (p : Port) : (s.grantPort p).profRom = s.profRom := by
  unfold State.grantPort; extract_lets; split <;> rfl
@[simp] theorem grantPort_prof (p : Port) : (s.grantPort p).prof = s.prof := by
  unfold State.grantPort; extract_lets; split <;> rfl
@[simp] theorem grantPort_firm (p : Port) : (s.grantPort p).firm = s.firm := by
  unfold State.grantPort; extract_lets; split <;> rfl
@[simp] theorem grantPort_keys (p : Port) : (s.grantPort p).keys = s.keys := by
  unfold State.grantPort; extract_lets; split <;> rfl
@[simp] theorem grantPort_health (p : Port) : (s.grantPort p).health = s.health := by
  unfold State.grantPort; extract_lets; split <;> rfl
@[simp] theorem grantPort_nextId (p : Port) : (s.grantPort p).nextId = s.nextId := by
  unfold State.grantPort; extract_lets; split <;> rfl
@[simp] theorem grantPort_free (p : Port) : (s.grantPort p).free = s.free := by
  unfold State.grantPort; extract_lets; split <;> rfl
@[simp] theorem grantPort_out (p : Port) : (s.grantPort p).out = s.out := by
  unfold State.grantPort; extract_lets; split <;> rfl
@[simp] theorem grantPort_pending (p : Port) : (s.grantPort p).pending = s.pending := by
  unfold State.grantPort; extract_lets; split <;> rfl
@[simp] theorem grantPort_present (p : Port) (q : Fin 8) : (s.grantPort p).present q = s.present q := present_of_fused (s := s) (t := s.grantPort p) (grantPort_fused ..) q
@[simp] theorem grantPort_sliceIds (p : Port) : (s.grantPort p).sliceIds = s.sliceIds := sliceIds_of_fused (s := s) (t := s.grantPort p) (grantPort_fused ..)
@[simp] theorem grantPort_slice (p : Port) (q : SliceId) : (s.grantPort p).slice q = s.slice q := congrArg (fun v : Vector Slice 8 => v[q]) (grantPort_slices ..)
@[simp] theorem grantPort_chan (p : Port) (q : SliceId) (ch : ChanId) : (s.grantPort p).chan q ch = s.chan q ch := congrArg (fun v : Vector Slice 8 => (v[q]).chans[ch]) (grantPort_slices ..)

/-! ### grantCredits -/

@[simp] theorem grantCredits_fused  : (s.grantCredits).fused = s.fused := by
  exact foldl_keeps State.fused _ (fun _ _ => grantPort_fused ..) _ _
@[simp] theorem grantCredits_slices  : (s.grantCredits).slices = s.slices := by
  exact foldl_keeps State.slices _ (fun _ _ => grantPort_slices ..) _ _
@[simp] theorem grantCredits_desc  : (s.grantCredits).desc = s.desc := by
  exact foldl_keeps State.desc _ (fun _ _ => grantPort_desc ..) _ _
@[simp] theorem grantCredits_index  : (s.grantCredits).index = s.index := by
  exact foldl_keeps State.index _ (fun _ _ => grantPort_index ..) _ _
@[simp] theorem grantCredits_discards  : (s.grantCredits).discards = s.discards := by
  exact foldl_keeps State.discards _ (fun _ _ => grantPort_discards ..) _ _
@[simp] theorem grantCredits_chunks  : (s.grantCredits).chunks = s.chunks := by
  exact foldl_keeps State.chunks _ (fun _ _ => grantPort_chunks ..) _ _
@[simp] theorem grantCredits_beat  : (s.grantCredits).beat = s.beat := by
  exact foldl_keeps State.beat _ (fun _ _ => grantPort_beat ..) _ _
@[simp] theorem grantCredits_rst  : (s.grantCredits).rst = s.rst := by
  exact foldl_keeps State.rst _ (fun _ _ => grantPort_rst ..) _ _
@[simp] theorem grantCredits_led  : (s.grantCredits).led = s.led := by
  exact foldl_keeps State.led _ (fun _ _ => grantPort_led ..) _ _
@[simp] theorem grantCredits_shadow  : (s.grantCredits).shadow = s.shadow := by
  exact foldl_keeps State.shadow _ (fun _ _ => grantPort_shadow ..) _ _
@[simp] theorem grantCredits_profNo  : (s.grantCredits).profNo = s.profNo := by
  exact foldl_keeps State.profNo _ (fun _ _ => grantPort_profNo ..) _ _
@[simp] theorem grantCredits_profRom  : (s.grantCredits).profRom = s.profRom := by
  exact foldl_keeps State.profRom _ (fun _ _ => grantPort_profRom ..) _ _
@[simp] theorem grantCredits_prof  : (s.grantCredits).prof = s.prof := by
  exact foldl_keeps State.prof _ (fun _ _ => grantPort_prof ..) _ _
@[simp] theorem grantCredits_firm  : (s.grantCredits).firm = s.firm := by
  exact foldl_keeps State.firm _ (fun _ _ => grantPort_firm ..) _ _
@[simp] theorem grantCredits_keys  : (s.grantCredits).keys = s.keys := by
  exact foldl_keeps State.keys _ (fun _ _ => grantPort_keys ..) _ _
@[simp] theorem grantCredits_health  : (s.grantCredits).health = s.health := by
  exact foldl_keeps State.health _ (fun _ _ => grantPort_health ..) _ _
@[simp] theorem grantCredits_nextId  : (s.grantCredits).nextId = s.nextId := by
  exact foldl_keeps State.nextId _ (fun _ _ => grantPort_nextId ..) _ _
@[simp] theorem grantCredits_free  : (s.grantCredits).free = s.free := by
  exact foldl_keeps State.free _ (fun _ _ => grantPort_free ..) _ _
@[simp] theorem grantCredits_out  : (s.grantCredits).out = s.out := by
  exact foldl_keeps State.out _ (fun _ _ => grantPort_out ..) _ _
@[simp] theorem grantCredits_pending  : (s.grantCredits).pending = s.pending := by
  exact foldl_keeps State.pending _ (fun _ _ => grantPort_pending ..) _ _
@[simp] theorem grantCredits_present  (q : Fin 8) : (s.grantCredits).present q = s.present q := present_of_fused (s := s) (t := s.grantCredits) (grantCredits_fused ..) q
@[simp] theorem grantCredits_sliceIds  : (s.grantCredits).sliceIds = s.sliceIds := sliceIds_of_fused (s := s) (t := s.grantCredits) (grantCredits_fused ..)
@[simp] theorem grantCredits_slice  (q : SliceId) : (s.grantCredits).slice q = s.slice q := congrArg (fun v : Vector Slice 8 => v[q]) (grantCredits_slices ..)
@[simp] theorem grantCredits_chan  (q : SliceId) (ch : ChanId) : (s.grantCredits).chan q ch = s.chan q ch := congrArg (fun v : Vector Slice 8 => (v[q]).chans[ch]) (grantCredits_slices ..)

/-! ### completeCxl -/

@[simp] theorem completeCxl_fused (r : Req) (data : Line) (poison : Bool) (bound : Nat) : (s.completeCxl r data poison bound).fused = s.fused := by
  unfold State.completeCxl; split
  · extract_lets
    show State.fused (ite _ _ _) = _
    split <;> rfl
  · rfl
@[simp] theorem completeCxl_desc (r : Req) (data : Line) (poison : Bool) (bound : Nat) : (s.completeCxl r data poison bound).desc = s.desc := by
  unfold State.completeCxl; split
  · extract_lets
    show State.desc (ite _ _ _) = _
    split <;> rfl
  · rfl
@[simp] theorem completeCxl_index (r : Req) (data : Line) (poison : Bool) (bound : Nat) : (s.completeCxl r data poison bound).index = s.index := by
  unfold State.completeCxl; split
  · extract_lets
    show State.index (ite _ _ _) = _
    split <;> rfl
  · rfl
@[simp] theorem completeCxl_discards (r : Req) (data : Line) (poison : Bool) (bound : Nat) : (s.completeCxl r data poison bound).discards = s.discards := by
  unfold State.completeCxl; split
  · extract_lets
    show State.discards (ite _ _ _) = _
    split <;> rfl
  · rfl
@[simp] theorem completeCxl_chunks (r : Req) (data : Line) (poison : Bool) (bound : Nat) : (s.completeCxl r data poison bound).chunks = s.chunks := by
  unfold State.completeCxl; split
  · extract_lets
    show State.chunks (ite _ _ _) = _
    split <;> rfl
  · rfl
@[simp] theorem completeCxl_beat (r : Req) (data : Line) (poison : Bool) (bound : Nat) : (s.completeCxl r data poison bound).beat = s.beat := by
  unfold State.completeCxl; split
  · extract_lets
    show State.beat (ite _ _ _) = _
    split <;> rfl
  · rfl
@[simp] theorem completeCxl_rst (r : Req) (data : Line) (poison : Bool) (bound : Nat) : (s.completeCxl r data poison bound).rst = s.rst := by
  unfold State.completeCxl; split
  · extract_lets
    show State.rst (ite _ _ _) = _
    split <;> rfl
  · rfl
@[simp] theorem completeCxl_led (r : Req) (data : Line) (poison : Bool) (bound : Nat) : (s.completeCxl r data poison bound).led = s.led := by
  unfold State.completeCxl; split
  · extract_lets
    show State.led (ite _ _ _) = _
    split <;> rfl
  · rfl
@[simp] theorem completeCxl_shadow (r : Req) (data : Line) (poison : Bool) (bound : Nat) : (s.completeCxl r data poison bound).shadow = s.shadow := by
  unfold State.completeCxl; split
  · extract_lets
    show State.shadow (ite _ _ _) = _
    split <;> rfl
  · rfl
@[simp] theorem completeCxl_profNo (r : Req) (data : Line) (poison : Bool) (bound : Nat) : (s.completeCxl r data poison bound).profNo = s.profNo := by
  unfold State.completeCxl; split
  · extract_lets
    show State.profNo (ite _ _ _) = _
    split <;> rfl
  · rfl
@[simp] theorem completeCxl_profRom (r : Req) (data : Line) (poison : Bool) (bound : Nat) : (s.completeCxl r data poison bound).profRom = s.profRom := by
  unfold State.completeCxl; split
  · extract_lets
    show State.profRom (ite _ _ _) = _
    split <;> rfl
  · rfl
@[simp] theorem completeCxl_prof (r : Req) (data : Line) (poison : Bool) (bound : Nat) : (s.completeCxl r data poison bound).prof = s.prof := by
  unfold State.completeCxl; split
  · extract_lets
    show State.prof (ite _ _ _) = _
    split <;> rfl
  · rfl
@[simp] theorem completeCxl_firm (r : Req) (data : Line) (poison : Bool) (bound : Nat) : (s.completeCxl r data poison bound).firm = s.firm := by
  unfold State.completeCxl; split
  · extract_lets
    show State.firm (ite _ _ _) = _
    split <;> rfl
  · rfl
@[simp] theorem completeCxl_keys (r : Req) (data : Line) (poison : Bool) (bound : Nat) : (s.completeCxl r data poison bound).keys = s.keys := by
  unfold State.completeCxl; split
  · extract_lets
    show State.keys (ite _ _ _) = _
    split <;> rfl
  · rfl
@[simp] theorem completeCxl_nextId (r : Req) (data : Line) (poison : Bool) (bound : Nat) : (s.completeCxl r data poison bound).nextId = s.nextId := by
  unfold State.completeCxl; split
  · extract_lets
    show State.nextId (ite _ _ _) = _
    split <;> rfl
  · rfl
@[simp] theorem completeCxl_free (r : Req) (data : Line) (poison : Bool) (bound : Nat) : (s.completeCxl r data poison bound).free = s.free := by
  unfold State.completeCxl; split
  · extract_lets
    show State.free (ite _ _ _) = _
    split <;> rfl
  · rfl
@[simp] theorem completeCxl_pending (r : Req) (data : Line) (poison : Bool) (bound : Nat) : (s.completeCxl r data poison bound).pending = s.pending := by
  unfold State.completeCxl; split
  · extract_lets
    show State.pending (ite _ _ _) = _
    split <;> rfl
  · rfl
@[simp] theorem completeCxl_present (r : Req) (data : Line) (poison : Bool) (bound : Nat) (q : Fin 8) : (s.completeCxl r data poison bound).present q = s.present q := present_of_fused (s := s) (t := s.completeCxl r data poison bound) (completeCxl_fused ..) q
@[simp] theorem completeCxl_sliceIds (r : Req) (data : Line) (poison : Bool) (bound : Nat) : (s.completeCxl r data poison bound).sliceIds = s.sliceIds := sliceIds_of_fused (s := s) (t := s.completeCxl r data poison bound) (completeCxl_fused ..)

/-! ### endBg -/

@[simp] theorem endBg_fused (p : Port) (c : Rc) (ext : Nat) (o : Option (List Byte)) : (s.endBg p c ext o).fused = s.fused := by
  unfold State.endBg; split
  · rfl
  · extract_lets
    split
    · rfl
    · split
      · refine (msix_fused ..).trans ?_
        cases o <;> rfl
      · cases o <;> rfl
@[simp] theorem endBg_slices (p : Port) (c : Rc) (ext : Nat) (o : Option (List Byte)) : (s.endBg p c ext o).slices = s.slices := by
  unfold State.endBg; split
  · rfl
  · extract_lets
    split
    · rfl
    · split
      · refine (msix_slices ..).trans ?_
        cases o <;> rfl
      · cases o <;> rfl
@[simp] theorem endBg_desc (p : Port) (c : Rc) (ext : Nat) (o : Option (List Byte)) : (s.endBg p c ext o).desc = s.desc := by
  unfold State.endBg; split
  · rfl
  · extract_lets
    split
    · rfl
    · split
      · refine (msix_desc ..).trans ?_
        cases o <;> rfl
      · cases o <;> rfl
@[simp] theorem endBg_index (p : Port) (c : Rc) (ext : Nat) (o : Option (List Byte)) : (s.endBg p c ext o).index = s.index := by
  unfold State.endBg; split
  · rfl
  · extract_lets
    split
    · rfl
    · split
      · refine (msix_index ..).trans ?_
        cases o <;> rfl
      · cases o <;> rfl
@[simp] theorem endBg_discards (p : Port) (c : Rc) (ext : Nat) (o : Option (List Byte)) : (s.endBg p c ext o).discards = s.discards := by
  unfold State.endBg; split
  · rfl
  · extract_lets
    split
    · rfl
    · split
      · refine (msix_discards ..).trans ?_
        cases o <;> rfl
      · cases o <;> rfl
@[simp] theorem endBg_chunks (p : Port) (c : Rc) (ext : Nat) (o : Option (List Byte)) : (s.endBg p c ext o).chunks = s.chunks := by
  unfold State.endBg; split
  · rfl
  · extract_lets
    split
    · rfl
    · split
      · refine (msix_chunks ..).trans ?_
        cases o <;> rfl
      · cases o <;> rfl
@[simp] theorem endBg_beat (p : Port) (c : Rc) (ext : Nat) (o : Option (List Byte)) : (s.endBg p c ext o).beat = s.beat := by
  unfold State.endBg; split
  · rfl
  · extract_lets
    split
    · rfl
    · split
      · refine (msix_beat ..).trans ?_
        cases o <;> rfl
      · cases o <;> rfl
@[simp] theorem endBg_rst (p : Port) (c : Rc) (ext : Nat) (o : Option (List Byte)) : (s.endBg p c ext o).rst = s.rst := by
  unfold State.endBg; split
  · rfl
  · extract_lets
    split
    · rfl
    · split
      · refine (msix_rst ..).trans ?_
        cases o <;> rfl
      · cases o <;> rfl
@[simp] theorem endBg_power (p : Port) (c : Rc) (ext : Nat) (o : Option (List Byte)) : (s.endBg p c ext o).power = s.power := by
  unfold State.endBg; split
  · rfl
  · extract_lets
    split
    · rfl
    · split
      · refine (msix_power ..).trans ?_
        cases o <;> rfl
      · cases o <;> rfl
@[simp] theorem endBg_led (p : Port) (c : Rc) (ext : Nat) (o : Option (List Byte)) : (s.endBg p c ext o).led = s.led := by
  unfold State.endBg; split
  · rfl
  · extract_lets
    split
    · rfl
    · split
      · refine (msix_led ..).trans ?_
        cases o <;> rfl
      · cases o <;> rfl
@[simp] theorem endBg_shadow (p : Port) (c : Rc) (ext : Nat) (o : Option (List Byte)) : (s.endBg p c ext o).shadow = s.shadow := by
  unfold State.endBg; split
  · rfl
  · extract_lets
    split
    · rfl
    · split
      · refine (msix_shadow ..).trans ?_
        cases o <;> rfl
      · cases o <;> rfl
@[simp] theorem endBg_profNo (p : Port) (c : Rc) (ext : Nat) (o : Option (List Byte)) : (s.endBg p c ext o).profNo = s.profNo := by
  unfold State.endBg; split
  · rfl
  · extract_lets
    split
    · rfl
    · split
      · refine (msix_profNo ..).trans ?_
        cases o <;> rfl
      · cases o <;> rfl
@[simp] theorem endBg_profRom (p : Port) (c : Rc) (ext : Nat) (o : Option (List Byte)) : (s.endBg p c ext o).profRom = s.profRom := by
  unfold State.endBg; split
  · rfl
  · extract_lets
    split
    · rfl
    · split
      · refine (msix_profRom ..).trans ?_
        cases o <;> rfl
      · cases o <;> rfl
@[simp] theorem endBg_prof (p : Port) (c : Rc) (ext : Nat) (o : Option (List Byte)) : (s.endBg p c ext o).prof = s.prof := by
  unfold State.endBg; split
  · rfl
  · extract_lets
    split
    · rfl
    · split
      · refine (msix_prof ..).trans ?_
        cases o <;> rfl
      · cases o <;> rfl
@[simp] theorem endBg_firm (p : Port) (c : Rc) (ext : Nat) (o : Option (List Byte)) : (s.endBg p c ext o).firm = s.firm := by
  unfold State.endBg; split
  · rfl
  · extract_lets
    split
    · rfl
    · split
      · refine (msix_firm ..).trans ?_
        cases o <;> rfl
      · cases o <;> rfl
@[simp] theorem endBg_keys (p : Port) (c : Rc) (ext : Nat) (o : Option (List Byte)) : (s.endBg p c ext o).keys = s.keys := by
  unfold State.endBg; split
  · rfl
  · extract_lets
    split
    · rfl
    · split
      · refine (msix_keys ..).trans ?_
        cases o <;> rfl
      · cases o <;> rfl
@[simp] theorem endBg_health (p : Port) (c : Rc) (ext : Nat) (o : Option (List Byte)) : (s.endBg p c ext o).health = s.health := by
  unfold State.endBg; split
  · rfl
  · extract_lets
    split
    · rfl
    · split
      · refine (msix_health ..).trans ?_
        cases o <;> rfl
      · cases o <;> rfl
@[simp] theorem endBg_nextId (p : Port) (c : Rc) (ext : Nat) (o : Option (List Byte)) : (s.endBg p c ext o).nextId = s.nextId := by
  unfold State.endBg; split
  · rfl
  · extract_lets
    split
    · rfl
    · split
      · refine (msix_nextId ..).trans ?_
        cases o <;> rfl
      · cases o <;> rfl
@[simp] theorem endBg_free (p : Port) (c : Rc) (ext : Nat) (o : Option (List Byte)) : (s.endBg p c ext o).free = s.free := by
  unfold State.endBg; split
  · rfl
  · extract_lets
    split
    · rfl
    · split
      · refine (msix_free ..).trans ?_
        cases o <;> rfl
      · cases o <;> rfl
@[simp] theorem endBg_pending (p : Port) (c : Rc) (ext : Nat) (o : Option (List Byte)) : (s.endBg p c ext o).pending = s.pending := by
  unfold State.endBg; split
  · rfl
  · extract_lets
    split
    · rfl
    · split
      · refine (msix_pending ..).trans ?_
        cases o <;> rfl
      · cases o <;> rfl
@[simp] theorem endBg_present (p : Port) (c : Rc) (ext : Nat) (o : Option (List Byte)) (q : Fin 8) : (s.endBg p c ext o).present q = s.present q := present_of_fused (s := s) (t := s.endBg p c ext o) (endBg_fused ..) q
@[simp] theorem endBg_sliceIds (p : Port) (c : Rc) (ext : Nat) (o : Option (List Byte)) : (s.endBg p c ext o).sliceIds = s.sliceIds := sliceIds_of_fused (s := s) (t := s.endBg p c ext o) (endBg_fused ..)
@[simp] theorem endBg_slice (p : Port) (c : Rc) (ext : Nat) (o : Option (List Byte)) (q : SliceId) : (s.endBg p c ext o).slice q = s.slice q := congrArg (fun v : Vector Slice 8 => v[q]) (endBg_slices ..)
@[simp] theorem endBg_chan (p : Port) (c : Rc) (ext : Nat) (o : Option (List Byte)) (q : SliceId) (ch : ChanId) : (s.endBg p c ext o).chan q ch = s.chan q ch := congrArg (fun v : Vector Slice 8 => (v[q]).chans[ch]) (endBg_slices ..)

/-! ### endVendor -/

@[simp] theorem endVendor_fused (p : Port) (c : Rc) (ext : Nat) (o : List Byte) : (s.endVendor p c ext o).fused = s.fused := by
  unfold State.endVendor; split <;> first | rfl | exact endBg_fused ..
@[simp] theorem endVendor_slices (p : Port) (c : Rc) (ext : Nat) (o : List Byte) : (s.endVendor p c ext o).slices = s.slices := by
  unfold State.endVendor; split <;> first | rfl | exact endBg_slices ..
@[simp] theorem endVendor_desc (p : Port) (c : Rc) (ext : Nat) (o : List Byte) : (s.endVendor p c ext o).desc = s.desc := by
  unfold State.endVendor; split <;> first | rfl | exact endBg_desc ..
@[simp] theorem endVendor_index (p : Port) (c : Rc) (ext : Nat) (o : List Byte) : (s.endVendor p c ext o).index = s.index := by
  unfold State.endVendor; split <;> first | rfl | exact endBg_index ..
@[simp] theorem endVendor_discards (p : Port) (c : Rc) (ext : Nat) (o : List Byte) : (s.endVendor p c ext o).discards = s.discards := by
  unfold State.endVendor; split <;> first | rfl | exact endBg_discards ..
@[simp] theorem endVendor_chunks (p : Port) (c : Rc) (ext : Nat) (o : List Byte) : (s.endVendor p c ext o).chunks = s.chunks := by
  unfold State.endVendor; split <;> first | rfl | exact endBg_chunks ..
@[simp] theorem endVendor_beat (p : Port) (c : Rc) (ext : Nat) (o : List Byte) : (s.endVendor p c ext o).beat = s.beat := by
  unfold State.endVendor; split <;> first | rfl | exact endBg_beat ..
@[simp] theorem endVendor_rst (p : Port) (c : Rc) (ext : Nat) (o : List Byte) : (s.endVendor p c ext o).rst = s.rst := by
  unfold State.endVendor; split <;> first | rfl | exact endBg_rst ..
@[simp] theorem endVendor_power (p : Port) (c : Rc) (ext : Nat) (o : List Byte) : (s.endVendor p c ext o).power = s.power := by
  unfold State.endVendor; split <;> first | rfl | exact endBg_power ..
@[simp] theorem endVendor_led (p : Port) (c : Rc) (ext : Nat) (o : List Byte) : (s.endVendor p c ext o).led = s.led := by
  unfold State.endVendor; split <;> first | rfl | exact endBg_led ..
@[simp] theorem endVendor_shadow (p : Port) (c : Rc) (ext : Nat) (o : List Byte) : (s.endVendor p c ext o).shadow = s.shadow := by
  unfold State.endVendor; split <;> first | rfl | exact endBg_shadow ..
@[simp] theorem endVendor_profNo (p : Port) (c : Rc) (ext : Nat) (o : List Byte) : (s.endVendor p c ext o).profNo = s.profNo := by
  unfold State.endVendor; split <;> first | rfl | exact endBg_profNo ..
@[simp] theorem endVendor_profRom (p : Port) (c : Rc) (ext : Nat) (o : List Byte) : (s.endVendor p c ext o).profRom = s.profRom := by
  unfold State.endVendor; split <;> first | rfl | exact endBg_profRom ..
@[simp] theorem endVendor_prof (p : Port) (c : Rc) (ext : Nat) (o : List Byte) : (s.endVendor p c ext o).prof = s.prof := by
  unfold State.endVendor; split <;> first | rfl | exact endBg_prof ..
@[simp] theorem endVendor_firm (p : Port) (c : Rc) (ext : Nat) (o : List Byte) : (s.endVendor p c ext o).firm = s.firm := by
  unfold State.endVendor; split <;> first | rfl | exact endBg_firm ..
@[simp] theorem endVendor_keys (p : Port) (c : Rc) (ext : Nat) (o : List Byte) : (s.endVendor p c ext o).keys = s.keys := by
  unfold State.endVendor; split <;> first | rfl | exact endBg_keys ..
@[simp] theorem endVendor_health (p : Port) (c : Rc) (ext : Nat) (o : List Byte) : (s.endVendor p c ext o).health = s.health := by
  unfold State.endVendor; split <;> first | rfl | exact endBg_health ..
@[simp] theorem endVendor_nextId (p : Port) (c : Rc) (ext : Nat) (o : List Byte) : (s.endVendor p c ext o).nextId = s.nextId := by
  unfold State.endVendor; split <;> first | rfl | exact endBg_nextId ..
@[simp] theorem endVendor_free (p : Port) (c : Rc) (ext : Nat) (o : List Byte) : (s.endVendor p c ext o).free = s.free := by
  unfold State.endVendor; split <;> first | rfl | exact endBg_free ..
@[simp] theorem endVendor_pending (p : Port) (c : Rc) (ext : Nat) (o : List Byte) : (s.endVendor p c ext o).pending = s.pending := by
  unfold State.endVendor; split <;> first | rfl | exact endBg_pending ..
@[simp] theorem endVendor_present (p : Port) (c : Rc) (ext : Nat) (o : List Byte) (q : Fin 8) : (s.endVendor p c ext o).present q = s.present q := present_of_fused (s := s) (t := s.endVendor p c ext o) (endVendor_fused ..) q
@[simp] theorem endVendor_sliceIds (p : Port) (c : Rc) (ext : Nat) (o : List Byte) : (s.endVendor p c ext o).sliceIds = s.sliceIds := sliceIds_of_fused (s := s) (t := s.endVendor p c ext o) (endVendor_fused ..)
@[simp] theorem endVendor_slice (p : Port) (c : Rc) (ext : Nat) (o : List Byte) (q : SliceId) : (s.endVendor p c ext o).slice q = s.slice q := congrArg (fun v : Vector Slice 8 => v[q]) (endVendor_slices ..)
@[simp] theorem endVendor_chan (p : Port) (c : Rc) (ext : Nat) (o : List Byte) (q : SliceId) (ch : ChanId) : (s.endVendor p c ext o).chan q ch = s.chan q ch := congrArg (fun v : Vector Slice 8 => (v[q]).chans[ch]) (endVendor_slices ..)

/-! ### notePoison -/

@[simp] theorem notePoison_fused (line : Nat) (src : Option PoisonSrc) : (s.notePoison line src).fused = s.fused := by
  unfold State.notePoison; (repeat' split) <;> rfl
@[simp] theorem notePoison_heads (line : Nat) (src : Option PoisonSrc) : (s.notePoison line src).heads = s.heads := by
  unfold State.notePoison; (repeat' split) <;> rfl
@[simp] theorem notePoison_slices (line : Nat) (src : Option PoisonSrc) : (s.notePoison line src).slices = s.slices := by
  unfold State.notePoison; (repeat' split) <;> rfl
@[simp] theorem notePoison_desc (line : Nat) (src : Option PoisonSrc) : (s.notePoison line src).desc = s.desc := by
  unfold State.notePoison; (repeat' split) <;> rfl
@[simp] theorem notePoison_index (line : Nat) (src : Option PoisonSrc) : (s.notePoison line src).index = s.index := by
  unfold State.notePoison; (repeat' split) <;> rfl
@[simp] theorem notePoison_discards (line : Nat) (src : Option PoisonSrc) : (s.notePoison line src).discards = s.discards := by
  unfold State.notePoison; (repeat' split) <;> rfl
@[simp] theorem notePoison_chunks (line : Nat) (src : Option PoisonSrc) : (s.notePoison line src).chunks = s.chunks := by
  unfold State.notePoison; (repeat' split) <;> rfl
@[simp] theorem notePoison_beat (line : Nat) (src : Option PoisonSrc) : (s.notePoison line src).beat = s.beat := by
  unfold State.notePoison; (repeat' split) <;> rfl
@[simp] theorem notePoison_rst (line : Nat) (src : Option PoisonSrc) : (s.notePoison line src).rst = s.rst := by
  unfold State.notePoison; (repeat' split) <;> rfl
@[simp] theorem notePoison_power (line : Nat) (src : Option PoisonSrc) : (s.notePoison line src).power = s.power := by
  unfold State.notePoison; (repeat' split) <;> rfl
@[simp] theorem notePoison_led (line : Nat) (src : Option PoisonSrc) : (s.notePoison line src).led = s.led := by
  unfold State.notePoison; (repeat' split) <;> rfl
@[simp] theorem notePoison_shadow (line : Nat) (src : Option PoisonSrc) : (s.notePoison line src).shadow = s.shadow := by
  unfold State.notePoison; (repeat' split) <;> rfl
@[simp] theorem notePoison_profNo (line : Nat) (src : Option PoisonSrc) : (s.notePoison line src).profNo = s.profNo := by
  unfold State.notePoison; (repeat' split) <;> rfl
@[simp] theorem notePoison_profRom (line : Nat) (src : Option PoisonSrc) : (s.notePoison line src).profRom = s.profRom := by
  unfold State.notePoison; (repeat' split) <;> rfl
@[simp] theorem notePoison_prof (line : Nat) (src : Option PoisonSrc) : (s.notePoison line src).prof = s.prof := by
  unfold State.notePoison; (repeat' split) <;> rfl
@[simp] theorem notePoison_firm (line : Nat) (src : Option PoisonSrc) : (s.notePoison line src).firm = s.firm := by
  unfold State.notePoison; (repeat' split) <;> rfl
@[simp] theorem notePoison_keys (line : Nat) (src : Option PoisonSrc) : (s.notePoison line src).keys = s.keys := by
  unfold State.notePoison; (repeat' split) <;> rfl
@[simp] theorem notePoison_nextId (line : Nat) (src : Option PoisonSrc) : (s.notePoison line src).nextId = s.nextId := by
  unfold State.notePoison; (repeat' split) <;> rfl
@[simp] theorem notePoison_free (line : Nat) (src : Option PoisonSrc) : (s.notePoison line src).free = s.free := by
  unfold State.notePoison; (repeat' split) <;> rfl
@[simp] theorem notePoison_out (line : Nat) (src : Option PoisonSrc) : (s.notePoison line src).out = s.out := by
  unfold State.notePoison; (repeat' split) <;> rfl
@[simp] theorem notePoison_pending (line : Nat) (src : Option PoisonSrc) : (s.notePoison line src).pending = s.pending := by
  unfold State.notePoison; (repeat' split) <;> rfl
@[simp] theorem notePoison_present (line : Nat) (src : Option PoisonSrc) (q : Fin 8) : (s.notePoison line src).present q = s.present q := present_of_fused (s := s) (t := s.notePoison line src) (notePoison_fused ..) q
@[simp] theorem notePoison_sliceIds (line : Nat) (src : Option PoisonSrc) : (s.notePoison line src).sliceIds = s.sliceIds := sliceIds_of_fused (s := s) (t := s.notePoison line src) (notePoison_fused ..)
@[simp] theorem notePoison_slice (line : Nat) (src : Option PoisonSrc) (q : SliceId) : (s.notePoison line src).slice q = s.slice q := congrArg (fun v : Vector Slice 8 => v[q]) (notePoison_slices ..)
@[simp] theorem notePoison_chan (line : Nat) (src : Option PoisonSrc) (q : SliceId) (ch : ChanId) : (s.notePoison line src).chan q ch = s.chan q ch := congrArg (fun v : Vector Slice 8 => (v[q]).chans[ch]) (notePoison_slices ..)
@[simp] theorem notePoison_head (line : Nat) (src : Option PoisonSrc) (q : Port) : (s.notePoison line src).head q = s.head q := congrArg (fun v : Vector Head 8 => v[q]) (notePoison_heads ..)

/-! ### commitLine -/

@[simp] theorem commitLine_fused (k : SliceId) (issuer : Option Port) (line : Nat) (be : BitVec 64) (d : Line) (poison : Bool) : (s.commitLine k issuer line be d poison).fused = s.fused := by
  unfold State.commitLine; extract_lets unver inList full pz s1 s2 s3; split
  · rfl
  · have h1 : State.fused s1 = s.fused := by simp only [s1]; (repeat' split) <;> rfl
    have h2 : State.fused s2 = s.fused := by
      simp only [s2]; split
      · exact (mediaRecord_fused ..).trans h1
      · exact h1
    have h3 : State.fused s3 = s.fused := by simp only [s3]; split <;> exact h2
    (repeat' split) <;> exact h3
@[simp] theorem commitLine_desc (k : SliceId) (issuer : Option Port) (line : Nat) (be : BitVec 64) (d : Line) (poison : Bool) : (s.commitLine k issuer line be d poison).desc = s.desc := by
  unfold State.commitLine; extract_lets unver inList full pz s1 s2 s3; split
  · rfl
  · have h1 : State.desc s1 = s.desc := by simp only [s1]; (repeat' split) <;> rfl
    have h2 : State.desc s2 = s.desc := by
      simp only [s2]; split
      · exact (mediaRecord_desc ..).trans h1
      · exact h1
    have h3 : State.desc s3 = s.desc := by simp only [s3]; split <;> exact h2
    (repeat' split) <;> exact h3
@[simp] theorem commitLine_index (k : SliceId) (issuer : Option Port) (line : Nat) (be : BitVec 64) (d : Line) (poison : Bool) : (s.commitLine k issuer line be d poison).index = s.index := by
  unfold State.commitLine; extract_lets unver inList full pz s1 s2 s3; split
  · rfl
  · have h1 : State.index s1 = s.index := by simp only [s1]; (repeat' split) <;> rfl
    have h2 : State.index s2 = s.index := by
      simp only [s2]; split
      · exact (mediaRecord_index ..).trans h1
      · exact h1
    have h3 : State.index s3 = s.index := by simp only [s3]; split <;> exact h2
    (repeat' split) <;> exact h3
@[simp] theorem commitLine_discards (k : SliceId) (issuer : Option Port) (line : Nat) (be : BitVec 64) (d : Line) (poison : Bool) : (s.commitLine k issuer line be d poison).discards = s.discards := by
  unfold State.commitLine; extract_lets unver inList full pz s1 s2 s3; split
  · rfl
  · have h1 : State.discards s1 = s.discards := by simp only [s1]; (repeat' split) <;> rfl
    have h2 : State.discards s2 = s.discards := by
      simp only [s2]; split
      · exact (mediaRecord_discards ..).trans h1
      · exact h1
    have h3 : State.discards s3 = s.discards := by simp only [s3]; split <;> exact h2
    (repeat' split) <;> exact h3
@[simp] theorem commitLine_chunks (k : SliceId) (issuer : Option Port) (line : Nat) (be : BitVec 64) (d : Line) (poison : Bool) : (s.commitLine k issuer line be d poison).chunks = s.chunks := by
  unfold State.commitLine; extract_lets unver inList full pz s1 s2 s3; split
  · rfl
  · have h1 : State.chunks s1 = s.chunks := by simp only [s1]; (repeat' split) <;> rfl
    have h2 : State.chunks s2 = s.chunks := by
      simp only [s2]; split
      · exact (mediaRecord_chunks ..).trans h1
      · exact h1
    have h3 : State.chunks s3 = s.chunks := by simp only [s3]; split <;> exact h2
    (repeat' split) <;> exact h3
@[simp] theorem commitLine_beat (k : SliceId) (issuer : Option Port) (line : Nat) (be : BitVec 64) (d : Line) (poison : Bool) : (s.commitLine k issuer line be d poison).beat = s.beat := by
  unfold State.commitLine; extract_lets unver inList full pz s1 s2 s3; split
  · rfl
  · have h1 : State.beat s1 = s.beat := by simp only [s1]; (repeat' split) <;> rfl
    have h2 : State.beat s2 = s.beat := by
      simp only [s2]; split
      · exact (mediaRecord_beat ..).trans h1
      · exact h1
    have h3 : State.beat s3 = s.beat := by simp only [s3]; split <;> exact h2
    (repeat' split) <;> exact h3
@[simp] theorem commitLine_power (k : SliceId) (issuer : Option Port) (line : Nat) (be : BitVec 64) (d : Line) (poison : Bool) : (s.commitLine k issuer line be d poison).power = s.power := by
  unfold State.commitLine; extract_lets unver inList full pz s1 s2 s3; split
  · rfl
  · have h1 : State.power s1 = s.power := by simp only [s1]; (repeat' split) <;> rfl
    have h2 : State.power s2 = s.power := by
      simp only [s2]; split
      · exact (mediaRecord_power ..).trans h1
      · exact h1
    have h3 : State.power s3 = s.power := by simp only [s3]; split <;> exact h2
    (repeat' split) <;> exact h3
@[simp] theorem commitLine_led (k : SliceId) (issuer : Option Port) (line : Nat) (be : BitVec 64) (d : Line) (poison : Bool) : (s.commitLine k issuer line be d poison).led = s.led := by
  unfold State.commitLine; extract_lets unver inList full pz s1 s2 s3; split
  · rfl
  · have h1 : State.led s1 = s.led := by simp only [s1]; (repeat' split) <;> rfl
    have h2 : State.led s2 = s.led := by
      simp only [s2]; split
      · exact (mediaRecord_led ..).trans h1
      · exact h1
    have h3 : State.led s3 = s.led := by simp only [s3]; split <;> exact h2
    (repeat' split) <;> exact h3
@[simp] theorem commitLine_shadow (k : SliceId) (issuer : Option Port) (line : Nat) (be : BitVec 64) (d : Line) (poison : Bool) : (s.commitLine k issuer line be d poison).shadow = s.shadow := by
  unfold State.commitLine; extract_lets unver inList full pz s1 s2 s3; split
  · rfl
  · have h1 : State.shadow s1 = s.shadow := by simp only [s1]; (repeat' split) <;> rfl
    have h2 : State.shadow s2 = s.shadow := by
      simp only [s2]; split
      · exact (mediaRecord_shadow ..).trans h1
      · exact h1
    have h3 : State.shadow s3 = s.shadow := by simp only [s3]; split <;> exact h2
    (repeat' split) <;> exact h3
@[simp] theorem commitLine_profNo (k : SliceId) (issuer : Option Port) (line : Nat) (be : BitVec 64) (d : Line) (poison : Bool) : (s.commitLine k issuer line be d poison).profNo = s.profNo := by
  unfold State.commitLine; extract_lets unver inList full pz s1 s2 s3; split
  · rfl
  · have h1 : State.profNo s1 = s.profNo := by simp only [s1]; (repeat' split) <;> rfl
    have h2 : State.profNo s2 = s.profNo := by
      simp only [s2]; split
      · exact (mediaRecord_profNo ..).trans h1
      · exact h1
    have h3 : State.profNo s3 = s.profNo := by simp only [s3]; split <;> exact h2
    (repeat' split) <;> exact h3
@[simp] theorem commitLine_profRom (k : SliceId) (issuer : Option Port) (line : Nat) (be : BitVec 64) (d : Line) (poison : Bool) : (s.commitLine k issuer line be d poison).profRom = s.profRom := by
  unfold State.commitLine; extract_lets unver inList full pz s1 s2 s3; split
  · rfl
  · have h1 : State.profRom s1 = s.profRom := by simp only [s1]; (repeat' split) <;> rfl
    have h2 : State.profRom s2 = s.profRom := by
      simp only [s2]; split
      · exact (mediaRecord_profRom ..).trans h1
      · exact h1
    have h3 : State.profRom s3 = s.profRom := by simp only [s3]; split <;> exact h2
    (repeat' split) <;> exact h3
@[simp] theorem commitLine_prof (k : SliceId) (issuer : Option Port) (line : Nat) (be : BitVec 64) (d : Line) (poison : Bool) : (s.commitLine k issuer line be d poison).prof = s.prof := by
  unfold State.commitLine; extract_lets unver inList full pz s1 s2 s3; split
  · rfl
  · have h1 : State.prof s1 = s.prof := by simp only [s1]; (repeat' split) <;> rfl
    have h2 : State.prof s2 = s.prof := by
      simp only [s2]; split
      · exact (mediaRecord_prof ..).trans h1
      · exact h1
    have h3 : State.prof s3 = s.prof := by simp only [s3]; split <;> exact h2
    (repeat' split) <;> exact h3
@[simp] theorem commitLine_keys (k : SliceId) (issuer : Option Port) (line : Nat) (be : BitVec 64) (d : Line) (poison : Bool) : (s.commitLine k issuer line be d poison).keys = s.keys := by
  unfold State.commitLine; extract_lets unver inList full pz s1 s2 s3; split
  · rfl
  · have h1 : State.keys s1 = s.keys := by simp only [s1]; (repeat' split) <;> rfl
    have h2 : State.keys s2 = s.keys := by
      simp only [s2]; split
      · exact (mediaRecord_keys ..).trans h1
      · exact h1
    have h3 : State.keys s3 = s.keys := by simp only [s3]; split <;> exact h2
    (repeat' split) <;> exact h3
@[simp] theorem commitLine_nextId (k : SliceId) (issuer : Option Port) (line : Nat) (be : BitVec 64) (d : Line) (poison : Bool) : (s.commitLine k issuer line be d poison).nextId = s.nextId := by
  unfold State.commitLine; extract_lets unver inList full pz s1 s2 s3; split
  · rfl
  · have h1 : State.nextId s1 = s.nextId := by simp only [s1]; (repeat' split) <;> rfl
    have h2 : State.nextId s2 = s.nextId := by
      simp only [s2]; split
      · exact (mediaRecord_nextId ..).trans h1
      · exact h1
    have h3 : State.nextId s3 = s.nextId := by simp only [s3]; split <;> exact h2
    (repeat' split) <;> exact h3
@[simp] theorem commitLine_free (k : SliceId) (issuer : Option Port) (line : Nat) (be : BitVec 64) (d : Line) (poison : Bool) : (s.commitLine k issuer line be d poison).free = s.free := by
  unfold State.commitLine; extract_lets unver inList full pz s1 s2 s3; split
  · rfl
  · have h1 : State.free s1 = s.free := by simp only [s1]; (repeat' split) <;> rfl
    have h2 : State.free s2 = s.free := by
      simp only [s2]; split
      · exact (mediaRecord_free ..).trans h1
      · exact h1
    have h3 : State.free s3 = s.free := by simp only [s3]; split <;> exact h2
    (repeat' split) <;> exact h3
@[simp] theorem commitLine_pending (k : SliceId) (issuer : Option Port) (line : Nat) (be : BitVec 64) (d : Line) (poison : Bool) : (s.commitLine k issuer line be d poison).pending = s.pending := by
  unfold State.commitLine; extract_lets unver inList full pz s1 s2 s3; split
  · rfl
  · have h1 : State.pending s1 = s.pending := by simp only [s1]; (repeat' split) <;> rfl
    have h2 : State.pending s2 = s.pending := by
      simp only [s2]; split
      · exact (mediaRecord_pending ..).trans h1
      · exact h1
    have h3 : State.pending s3 = s.pending := by simp only [s3]; split <;> exact h2
    (repeat' split) <;> exact h3
@[simp] theorem commitLine_present (k : SliceId) (issuer : Option Port) (line : Nat) (be : BitVec 64) (d : Line) (poison : Bool) (q : Fin 8) : (s.commitLine k issuer line be d poison).present q = s.present q := present_of_fused (s := s) (t := s.commitLine k issuer line be d poison) (commitLine_fused ..) q
@[simp] theorem commitLine_sliceIds (k : SliceId) (issuer : Option Port) (line : Nat) (be : BitVec 64) (d : Line) (poison : Bool) : (s.commitLine k issuer line be d poison).sliceIds = s.sliceIds := sliceIds_of_fused (s := s) (t := s.commitLine k issuer line be d poison) (commitLine_fused ..)

/-! ### rung -/

@[simp] theorem rung_fused (src : Src) : (s.rung src).fused = s.fused := by
  cases src with
  | i3c => rfl
  | head p => unfold State.rung; dsimp only; split <;> first | exact msix_fused .. | rfl
@[simp] theorem rung_slices (src : Src) : (s.rung src).slices = s.slices := by
  cases src with
  | i3c => rfl
  | head p => unfold State.rung; dsimp only; split <;> first | exact msix_slices .. | rfl
@[simp] theorem rung_desc (src : Src) : (s.rung src).desc = s.desc := by
  cases src with
  | i3c => rfl
  | head p => unfold State.rung; dsimp only; split <;> first | exact msix_desc .. | rfl
@[simp] theorem rung_index (src : Src) : (s.rung src).index = s.index := by
  cases src with
  | i3c => rfl
  | head p => unfold State.rung; dsimp only; split <;> first | exact msix_index .. | rfl
@[simp] theorem rung_discards (src : Src) : (s.rung src).discards = s.discards := by
  cases src with
  | i3c => rfl
  | head p => unfold State.rung; dsimp only; split <;> first | exact msix_discards .. | rfl
@[simp] theorem rung_chunks (src : Src) : (s.rung src).chunks = s.chunks := by
  cases src with
  | i3c => rfl
  | head p => unfold State.rung; dsimp only; split <;> first | exact msix_chunks .. | rfl
@[simp] theorem rung_beat (src : Src) : (s.rung src).beat = s.beat := by
  cases src with
  | i3c => rfl
  | head p => unfold State.rung; dsimp only; split <;> first | exact msix_beat .. | rfl
@[simp] theorem rung_rst (src : Src) : (s.rung src).rst = s.rst := by
  cases src with
  | i3c => rfl
  | head p => unfold State.rung; dsimp only; split <;> first | exact msix_rst .. | rfl
@[simp] theorem rung_power (src : Src) : (s.rung src).power = s.power := by
  cases src with
  | i3c => rfl
  | head p => unfold State.rung; dsimp only; split <;> first | exact msix_power .. | rfl
@[simp] theorem rung_led (src : Src) : (s.rung src).led = s.led := by
  cases src with
  | i3c => rfl
  | head p => unfold State.rung; dsimp only; split <;> first | exact msix_led .. | rfl
@[simp] theorem rung_shadow (src : Src) : (s.rung src).shadow = s.shadow := by
  cases src with
  | i3c => rfl
  | head p => unfold State.rung; dsimp only; split <;> first | exact msix_shadow .. | rfl
@[simp] theorem rung_profNo (src : Src) : (s.rung src).profNo = s.profNo := by
  cases src with
  | i3c => rfl
  | head p => unfold State.rung; dsimp only; split <;> first | exact msix_profNo .. | rfl
@[simp] theorem rung_profRom (src : Src) : (s.rung src).profRom = s.profRom := by
  cases src with
  | i3c => rfl
  | head p => unfold State.rung; dsimp only; split <;> first | exact msix_profRom .. | rfl
@[simp] theorem rung_prof (src : Src) : (s.rung src).prof = s.prof := by
  cases src with
  | i3c => rfl
  | head p => unfold State.rung; dsimp only; split <;> first | exact msix_prof .. | rfl
@[simp] theorem rung_firm (src : Src) : (s.rung src).firm = s.firm := by
  cases src with
  | i3c => rfl
  | head p => unfold State.rung; dsimp only; split <;> first | exact msix_firm .. | rfl
@[simp] theorem rung_keys (src : Src) : (s.rung src).keys = s.keys := by
  cases src with
  | i3c => rfl
  | head p => unfold State.rung; dsimp only; split <;> first | exact msix_keys .. | rfl
@[simp] theorem rung_health (src : Src) : (s.rung src).health = s.health := by
  cases src with
  | i3c => rfl
  | head p => unfold State.rung; dsimp only; split <;> first | exact msix_health .. | rfl
@[simp] theorem rung_nextId (src : Src) : (s.rung src).nextId = s.nextId := by
  cases src with
  | i3c => rfl
  | head p => unfold State.rung; dsimp only; split <;> first | exact msix_nextId .. | rfl
@[simp] theorem rung_free (src : Src) : (s.rung src).free = s.free := by
  cases src with
  | i3c => rfl
  | head p => unfold State.rung; dsimp only; split <;> first | exact msix_free .. | rfl
@[simp] theorem rung_pending (src : Src) : (s.rung src).pending = s.pending := by
  cases src with
  | i3c => rfl
  | head p => unfold State.rung; dsimp only; split <;> first | exact msix_pending .. | rfl
@[simp] theorem rung_present (src : Src) (q : Fin 8) : (s.rung src).present q = s.present q := present_of_fused (s := s) (t := s.rung src) (rung_fused ..) q
@[simp] theorem rung_sliceIds (src : Src) : (s.rung src).sliceIds = s.sliceIds := sliceIds_of_fused (s := s) (t := s.rung src) (rung_fused ..)
@[simp] theorem rung_slice (src : Src) (q : SliceId) : (s.rung src).slice q = s.slice q := congrArg (fun v : Vector Slice 8 => v[q]) (rung_slices ..)
@[simp] theorem rung_chan (src : Src) (q : SliceId) (ch : ChanId) : (s.rung src).chan q ch = s.chan q ch := congrArg (fun v : Vector Slice 8 => (v[q]).chans[ch]) (rung_slices ..)

/-! ### answer -/

@[simp] theorem answer_fused (src : Src) (c : Rc) (r : StdReply) : (s.answer src c r).fused = s.fused := by
  exact (rung_fused ..).trans rfl
@[simp] theorem answer_slices (src : Src) (c : Rc) (r : StdReply) : (s.answer src c r).slices = s.slices := by
  exact (rung_slices ..).trans rfl
@[simp] theorem answer_desc (src : Src) (c : Rc) (r : StdReply) : (s.answer src c r).desc = s.desc := by
  exact (rung_desc ..).trans rfl
@[simp] theorem answer_index (src : Src) (c : Rc) (r : StdReply) : (s.answer src c r).index = s.index := by
  exact (rung_index ..).trans rfl
@[simp] theorem answer_discards (src : Src) (c : Rc) (r : StdReply) : (s.answer src c r).discards = s.discards := by
  exact (rung_discards ..).trans rfl
@[simp] theorem answer_chunks (src : Src) (c : Rc) (r : StdReply) : (s.answer src c r).chunks = s.chunks := by
  exact (rung_chunks ..).trans rfl
@[simp] theorem answer_beat (src : Src) (c : Rc) (r : StdReply) : (s.answer src c r).beat = s.beat := by
  exact (rung_beat ..).trans rfl
@[simp] theorem answer_rst (src : Src) (c : Rc) (r : StdReply) : (s.answer src c r).rst = s.rst := by
  exact (rung_rst ..).trans rfl
@[simp] theorem answer_power (src : Src) (c : Rc) (r : StdReply) : (s.answer src c r).power = s.power := by
  exact (rung_power ..).trans rfl
@[simp] theorem answer_led (src : Src) (c : Rc) (r : StdReply) : (s.answer src c r).led = s.led := by
  exact (rung_led ..).trans rfl
@[simp] theorem answer_shadow (src : Src) (c : Rc) (r : StdReply) : (s.answer src c r).shadow = s.shadow := by
  exact (rung_shadow ..).trans rfl
@[simp] theorem answer_profNo (src : Src) (c : Rc) (r : StdReply) : (s.answer src c r).profNo = s.profNo := by
  exact (rung_profNo ..).trans rfl
@[simp] theorem answer_profRom (src : Src) (c : Rc) (r : StdReply) : (s.answer src c r).profRom = s.profRom := by
  exact (rung_profRom ..).trans rfl
@[simp] theorem answer_prof (src : Src) (c : Rc) (r : StdReply) : (s.answer src c r).prof = s.prof := by
  exact (rung_prof ..).trans rfl
@[simp] theorem answer_firm (src : Src) (c : Rc) (r : StdReply) : (s.answer src c r).firm = s.firm := by
  exact (rung_firm ..).trans rfl
@[simp] theorem answer_keys (src : Src) (c : Rc) (r : StdReply) : (s.answer src c r).keys = s.keys := by
  exact (rung_keys ..).trans rfl
@[simp] theorem answer_health (src : Src) (c : Rc) (r : StdReply) : (s.answer src c r).health = s.health := by
  exact (rung_health ..).trans rfl
@[simp] theorem answer_nextId (src : Src) (c : Rc) (r : StdReply) : (s.answer src c r).nextId = s.nextId := by
  exact (rung_nextId ..).trans rfl
@[simp] theorem answer_free (src : Src) (c : Rc) (r : StdReply) : (s.answer src c r).free = s.free := by
  exact (rung_free ..).trans rfl
@[simp] theorem answer_pending (src : Src) (c : Rc) (r : StdReply) : (s.answer src c r).pending = s.pending := by
  exact (rung_pending ..).trans rfl
@[simp] theorem answer_present (src : Src) (c : Rc) (r : StdReply) (q : Fin 8) : (s.answer src c r).present q = s.present q := present_of_fused (s := s) (t := s.answer src c r) (answer_fused ..) q
@[simp] theorem answer_sliceIds (src : Src) (c : Rc) (r : StdReply) : (s.answer src c r).sliceIds = s.sliceIds := sliceIds_of_fused (s := s) (t := s.answer src c r) (answer_fused ..)
@[simp] theorem answer_slice (src : Src) (c : Rc) (r : StdReply) (q : SliceId) : (s.answer src c r).slice q = s.slice q := congrArg (fun v : Vector Slice 8 => v[q]) (answer_slices ..)
@[simp] theorem answer_chan (src : Src) (c : Rc) (r : StdReply) (q : SliceId) (ch : ChanId) : (s.answer src c r).chan q ch = s.chan q ch := congrArg (fun v : Vector Slice 8 => (v[q]).chans[ch]) (answer_slices ..)

/-! ### respond -/

@[simp] theorem respond_fused (src : Src) (tag : BitVec 16) (dg : BitVec 64) (c : Rc) (pl : List Byte) : (s.respond src tag dg c pl).fused = s.fused := by
  unfold State.respond
  cases src with
  | i3c => rfl
  | head p =>
    dsimp only
    (repeat' split) <;> first | rfl | exact (rung_fused ..).trans rfl
@[simp] theorem respond_slices (src : Src) (tag : BitVec 16) (dg : BitVec 64) (c : Rc) (pl : List Byte) : (s.respond src tag dg c pl).slices = s.slices := by
  unfold State.respond
  cases src with
  | i3c => rfl
  | head p =>
    dsimp only
    (repeat' split) <;> first | rfl | exact (rung_slices ..).trans rfl
@[simp] theorem respond_desc (src : Src) (tag : BitVec 16) (dg : BitVec 64) (c : Rc) (pl : List Byte) : (s.respond src tag dg c pl).desc = s.desc := by
  unfold State.respond
  cases src with
  | i3c => rfl
  | head p =>
    dsimp only
    (repeat' split) <;> first | rfl | exact (rung_desc ..).trans rfl
@[simp] theorem respond_index (src : Src) (tag : BitVec 16) (dg : BitVec 64) (c : Rc) (pl : List Byte) : (s.respond src tag dg c pl).index = s.index := by
  unfold State.respond
  cases src with
  | i3c => rfl
  | head p =>
    dsimp only
    (repeat' split) <;> first | rfl | exact (rung_index ..).trans rfl
@[simp] theorem respond_discards (src : Src) (tag : BitVec 16) (dg : BitVec 64) (c : Rc) (pl : List Byte) : (s.respond src tag dg c pl).discards = s.discards := by
  unfold State.respond
  cases src with
  | i3c => rfl
  | head p =>
    dsimp only
    (repeat' split) <;> first | rfl | exact (rung_discards ..).trans rfl
@[simp] theorem respond_chunks (src : Src) (tag : BitVec 16) (dg : BitVec 64) (c : Rc) (pl : List Byte) : (s.respond src tag dg c pl).chunks = s.chunks := by
  unfold State.respond
  cases src with
  | i3c => rfl
  | head p =>
    dsimp only
    (repeat' split) <;> first | rfl | exact (rung_chunks ..).trans rfl
@[simp] theorem respond_beat (src : Src) (tag : BitVec 16) (dg : BitVec 64) (c : Rc) (pl : List Byte) : (s.respond src tag dg c pl).beat = s.beat := by
  unfold State.respond
  cases src with
  | i3c => rfl
  | head p =>
    dsimp only
    (repeat' split) <;> first | rfl | exact (rung_beat ..).trans rfl
@[simp] theorem respond_rst (src : Src) (tag : BitVec 16) (dg : BitVec 64) (c : Rc) (pl : List Byte) : (s.respond src tag dg c pl).rst = s.rst := by
  unfold State.respond
  cases src with
  | i3c => rfl
  | head p =>
    dsimp only
    (repeat' split) <;> first | rfl | exact (rung_rst ..).trans rfl
@[simp] theorem respond_power (src : Src) (tag : BitVec 16) (dg : BitVec 64) (c : Rc) (pl : List Byte) : (s.respond src tag dg c pl).power = s.power := by
  unfold State.respond
  cases src with
  | i3c => rfl
  | head p =>
    dsimp only
    (repeat' split) <;> first | rfl | exact (rung_power ..).trans rfl
@[simp] theorem respond_led (src : Src) (tag : BitVec 16) (dg : BitVec 64) (c : Rc) (pl : List Byte) : (s.respond src tag dg c pl).led = s.led := by
  unfold State.respond
  cases src with
  | i3c => rfl
  | head p =>
    dsimp only
    (repeat' split) <;> first | rfl | exact (rung_led ..).trans rfl
@[simp] theorem respond_shadow (src : Src) (tag : BitVec 16) (dg : BitVec 64) (c : Rc) (pl : List Byte) : (s.respond src tag dg c pl).shadow = s.shadow := by
  unfold State.respond
  cases src with
  | i3c => rfl
  | head p =>
    dsimp only
    (repeat' split) <;> first | rfl | exact (rung_shadow ..).trans rfl
@[simp] theorem respond_profNo (src : Src) (tag : BitVec 16) (dg : BitVec 64) (c : Rc) (pl : List Byte) : (s.respond src tag dg c pl).profNo = s.profNo := by
  unfold State.respond
  cases src with
  | i3c => rfl
  | head p =>
    dsimp only
    (repeat' split) <;> first | rfl | exact (rung_profNo ..).trans rfl
@[simp] theorem respond_profRom (src : Src) (tag : BitVec 16) (dg : BitVec 64) (c : Rc) (pl : List Byte) : (s.respond src tag dg c pl).profRom = s.profRom := by
  unfold State.respond
  cases src with
  | i3c => rfl
  | head p =>
    dsimp only
    (repeat' split) <;> first | rfl | exact (rung_profRom ..).trans rfl
@[simp] theorem respond_prof (src : Src) (tag : BitVec 16) (dg : BitVec 64) (c : Rc) (pl : List Byte) : (s.respond src tag dg c pl).prof = s.prof := by
  unfold State.respond
  cases src with
  | i3c => rfl
  | head p =>
    dsimp only
    (repeat' split) <;> first | rfl | exact (rung_prof ..).trans rfl
@[simp] theorem respond_firm (src : Src) (tag : BitVec 16) (dg : BitVec 64) (c : Rc) (pl : List Byte) : (s.respond src tag dg c pl).firm = s.firm := by
  unfold State.respond
  cases src with
  | i3c => rfl
  | head p =>
    dsimp only
    (repeat' split) <;> first | rfl | exact (rung_firm ..).trans rfl
@[simp] theorem respond_keys (src : Src) (tag : BitVec 16) (dg : BitVec 64) (c : Rc) (pl : List Byte) : (s.respond src tag dg c pl).keys = s.keys := by
  unfold State.respond
  cases src with
  | i3c => rfl
  | head p =>
    dsimp only
    (repeat' split) <;> first | rfl | exact (rung_keys ..).trans rfl
@[simp] theorem respond_health (src : Src) (tag : BitVec 16) (dg : BitVec 64) (c : Rc) (pl : List Byte) : (s.respond src tag dg c pl).health = s.health := by
  unfold State.respond
  cases src with
  | i3c => rfl
  | head p =>
    dsimp only
    (repeat' split) <;> first | rfl | exact (rung_health ..).trans rfl
@[simp] theorem respond_nextId (src : Src) (tag : BitVec 16) (dg : BitVec 64) (c : Rc) (pl : List Byte) : (s.respond src tag dg c pl).nextId = s.nextId := by
  unfold State.respond
  cases src with
  | i3c => rfl
  | head p =>
    dsimp only
    (repeat' split) <;> first | rfl | exact (rung_nextId ..).trans rfl
@[simp] theorem respond_free (src : Src) (tag : BitVec 16) (dg : BitVec 64) (c : Rc) (pl : List Byte) : (s.respond src tag dg c pl).free = s.free := by
  unfold State.respond
  cases src with
  | i3c => rfl
  | head p =>
    dsimp only
    (repeat' split) <;> first | rfl | exact (rung_free ..).trans rfl
@[simp] theorem respond_pending (src : Src) (tag : BitVec 16) (dg : BitVec 64) (c : Rc) (pl : List Byte) : (s.respond src tag dg c pl).pending = s.pending := by
  unfold State.respond
  cases src with
  | i3c => rfl
  | head p =>
    dsimp only
    (repeat' split) <;> first | rfl | exact (rung_pending ..).trans rfl
@[simp] theorem respond_present (src : Src) (tag : BitVec 16) (dg : BitVec 64) (c : Rc) (pl : List Byte) (q : Fin 8) : (s.respond src tag dg c pl).present q = s.present q := present_of_fused (s := s) (t := s.respond src tag dg c pl) (respond_fused ..) q
@[simp] theorem respond_sliceIds (src : Src) (tag : BitVec 16) (dg : BitVec 64) (c : Rc) (pl : List Byte) : (s.respond src tag dg c pl).sliceIds = s.sliceIds := sliceIds_of_fused (s := s) (t := s.respond src tag dg c pl) (respond_fused ..)
@[simp] theorem respond_slice (src : Src) (tag : BitVec 16) (dg : BitVec 64) (c : Rc) (pl : List Byte) (q : SliceId) : (s.respond src tag dg c pl).slice q = s.slice q := congrArg (fun v : Vector Slice 8 => v[q]) (respond_slices ..)
@[simp] theorem respond_chan (src : Src) (tag : BitVec 16) (dg : BitVec 64) (c : Rc) (pl : List Byte) (q : SliceId) (ch : ChanId) : (s.respond src tag dg c pl).chan q ch = s.chan q ch := congrArg (fun v : Vector Slice 8 => (v[q]).chans[ch]) (respond_slices ..)

/-- Admission changes credits and nothing else of a head (R48). -/
theorem grantPort_head (p q : Port) : ∃ a b, (s.grantPort p).head q = { s.head q with credR := a, credD := b } := by
  unfold State.grantPort
  extract_lets
  split
  · by_cases h : q = p
    · subst h; exact ⟨_, _, head_updHead_self ..⟩
    · exact ⟨(s.head q).credR, (s.head q).credD, head_updHead_ne _ _ h⟩
  · exact ⟨(s.head q).credR, (s.head q).credD, rfl⟩

/-- The same of admission on every port. -/
theorem grantCredits_head (q : Port) : ∃ a b, s.grantCredits.head q = { s.head q with credR := a, credD := b } := by
  have key : ∀ (l : List SliceId) (t : State), ∃ a b, (l.foldl (fun s p => s.grantPort p) t).head q = { t.head q with credR := a, credD := b } := by
    intro l
    induction l with
    | nil => intro t; exact ⟨(t.head q).credR, (t.head q).credD, rfl⟩
    | cons p l ih =>
      intro t
      obtain ⟨a, b, h⟩ := ih (t.grantPort p)
      obtain ⟨c, d, h'⟩ := grantPort_head t p q
      exact ⟨a, b, by rw [List.foldl_cons, h, h']⟩
  exact key _ s.updWithheld

@[simp] theorem grantCredits_head_link (q : Port) : (s.grantCredits.head q).link = (s.head q).link := by
  obtain ⟨a, b, h⟩ := grantCredits_head s q; rw [h]
@[simp] theorem grantCredits_head_enabled (q : Port) : (s.grantCredits.head q).enabled = (s.head q).enabled := by
  obtain ⟨a, b, h⟩ := grantCredits_head s q; rw [h]
@[simp] theorem grantCredits_head_held (q : Port) : (s.grantCredits.head q).held = (s.head q).held := by
  obtain ⟨a, b, h⟩ := grantCredits_head s q; rw [h]
@[simp] theorem grantCredits_head_dec (q : Port) : (s.grantCredits.head q).dec = (s.head q).dec := by
  obtain ⟨a, b, h⟩ := grantCredits_head s q; rw [h]
@[simp] theorem grantCredits_head_ideMem (q : Port) : (s.grantCredits.head q).ideMem = (s.head q).ideMem := by
  obtain ⟨a, b, h⟩ := grantCredits_head s q; rw [h]
@[simp] theorem grantCredits_head_ideIo (q : Port) : (s.grantCredits.head q).ideIo = (s.head q).ideIo := by
  obtain ⟨a, b, h⟩ := grantCredits_head s q; rw [h]
@[simp] theorem grantCredits_head_msix (q : Port) : (s.grantCredits.head q).msix = (s.head q).msix := by
  obtain ⟨a, b, h⟩ := grantCredits_head s q; rw [h]
@[simp] theorem grantCredits_head_pba (q : Port) : (s.grantCredits.head q).pba = (s.head q).pba := by
  obtain ⟨a, b, h⟩ := grantCredits_head s q; rw [h]
@[simp] theorem grantCredits_head_policy (q : Port) : (s.grantCredits.head q).policy = (s.head q).policy := by
  obtain ⟨a, b, h⟩ := grantCredits_head s q; rw [h]
@[simp] theorem grantCredits_head_logs (q : Port) : (s.grantCredits.head q).logs = (s.head q).logs := by
  obtain ⟨a, b, h⟩ := grantCredits_head s q; rw [h]
@[simp] theorem grantCredits_head_lsa (q : Port) : (s.grantCredits.head q).lsa = (s.head q).lsa := by
  obtain ⟨a, b, h⟩ := grantCredits_head s q; rw [h]
@[simp] theorem grantCredits_head_alarm (q : Port) : (s.grantCredits.head q).alarm = (s.head q).alarm := by
  obtain ⟨a, b, h⟩ := grantCredits_head s q; rw [h]
@[simp] theorem grantCredits_head_cause (q : Port) : (s.grantCredits.head q).cause = (s.head q).cause := by
  obtain ⟨a, b, h⟩ := grantCredits_head s q; rw [h]
@[simp] theorem grantCredits_head_viralEn (q : Port) : (s.grantCredits.head q).viralEn = (s.head q).viralEn := by
  obtain ⟨a, b, h⟩ := grantCredits_head s q; rw [h]
@[simp] theorem grantCredits_head_viral (q : Port) : (s.grantCredits.head q).viral = (s.head q).viral := by
  obtain ⟨a, b, h⟩ := grantCredits_head s q; rw [h]
@[simp] theorem grantCredits_head_tq (q : Port) : (s.grantCredits.head q).tq = (s.head q).tq := by
  obtain ⟨a, b, h⟩ := grantCredits_head s q; rw [h]
@[simp] theorem grantCredits_head_latch (q : Port) : (s.grantCredits.head q).latch = (s.head q).latch := by
  obtain ⟨a, b, h⟩ := grantCredits_head s q; rw [h]
@[simp] theorem grantCredits_head_bar0 (q : Port) : (s.grantCredits.head q).bar0 = (s.head q).bar0 := by
  obtain ⟨a, b, h⟩ := grantCredits_head s q; rw [h]
@[simp] theorem grantCredits_head_bar2 (q : Port) : (s.grantCredits.head q).bar2 = (s.head q).bar2 := by
  obtain ⟨a, b, h⟩ := grantCredits_head s q; rw [h]
@[simp] theorem grantCredits_head_l1Enable (q : Port) : (s.grantCredits.head q).l1Enable = (s.head q).l1Enable := by
  obtain ⟨a, b, h⟩ := grantCredits_head s q; rw [h]
@[simp] theorem grantCredits_head_muted (q : Port) : (s.grantCredits.head q).muted = (s.head q).muted := by
  obtain ⟨a, b, h⟩ := grantCredits_head s q; rw [h]
@[simp] theorem grantCredits_head_mutedBg (q : Port) : (s.grantCredits.head q).mutedBg = (s.head q).mutedBg := by
  obtain ⟨a, b, h⟩ := grantCredits_head s q; rw [h]
@[simp] theorem grantCredits_head_mboxReady (q : Port) : (s.grantCredits.head q).mboxReady = (s.head q).mboxReady := by
  obtain ⟨a, b, h⟩ := grantCredits_head s q; rw [h]
@[simp] theorem grantCredits_head_dbInt (q : Port) : (s.grantCredits.head q).dbInt = (s.head q).dbInt := by
  obtain ⟨a, b, h⟩ := grantCredits_head s q; rw [h]
@[simp] theorem grantCredits_head_bgInt (q : Port) : (s.grantCredits.head q).bgInt = (s.head q).bgInt := by
  obtain ⟨a, b, h⟩ := grantCredits_head s q; rw [h]
@[simp] theorem grantCredits_head_dup (q : Port) : (s.grantCredits.head q).dup = (s.head q).dup := by
  obtain ⟨a, b, h⟩ := grantCredits_head s q; rw [h]
@[simp] theorem grantCredits_head_bg (q : Port) : (s.grantCredits.head q).bg = (s.head q).bg := by
  obtain ⟨a, b, h⟩ := grantCredits_head s q; rw [h]
@[simp] theorem grantCredits_head_bgLast (q : Port) : (s.grantCredits.head q).bgLast = (s.head q).bgLast := by
  obtain ⟨a, b, h⟩ := grantCredits_head s q; rw [h]
@[simp] theorem grantCredits_head_doorbells (q : Port) : (s.grantCredits.head q).doorbells = (s.head q).doorbells := by
  obtain ⟨a, b, h⟩ := grantCredits_head s q; rw [h]
@[simp] theorem grantCredits_head_window (q : Port) : (s.grantCredits.head q).window = (s.head q).window := by
  obtain ⟨a, b, h⟩ := grantCredits_head s q; rw [h]
@[simp] theorem grantCredits_head_inflight (q : Port) : (s.grantCredits.head q).inflight = (s.head q).inflight := by
  obtain ⟨a, b, h⟩ := grantCredits_head s q; rw [h]
@[simp] theorem grantCredits_head_limits (q : Port) : (s.grantCredits.head q).limits = (s.head q).limits := by
  obtain ⟨a, b, h⟩ := grantCredits_head s q; rw [h]
@[simp] theorem grantCredits_head_shadow (q : Port) : (s.grantCredits.head q).shadow = (s.head q).shadow := by
  obtain ⟨a, b, h⟩ := grantCredits_head s q; rw [h]
@[simp] theorem grantCredits_head_grantedManage (q : Port) : (s.grantCredits.head q).grantedManage = (s.head q).grantedManage := by
  obtain ⟨a, b, h⟩ := grantCredits_head s q; rw [h]
@[simp] theorem grantCredits_head_userRead (q : Port) : (s.grantCredits.head q).userRead = (s.head q).userRead := by
  obtain ⟨a, b, h⟩ := grantCredits_head s q; rw [h]
@[simp] theorem grantCredits_head_scanResults (q : Port) : (s.grantCredits.head q).scanResults = (s.head q).scanResults := by
  obtain ⟨a, b, h⟩ := grantCredits_head s q; rw [h]
@[simp] theorem grantCredits_power_rails : s.grantCredits.power.rails = s.power.rails := (congrArg Power.rails (foldl_keeps State.power _ (fun _ _ => grantPort_power ..) _ _)).trans rfl
@[simp] theorem grantCredits_power_cfg : s.grantCredits.power.cfg = s.power.cfg := (congrArg Power.cfg (foldl_keeps State.power _ (fun _ _ => grantPort_power ..) _ _)).trans rfl
@[simp] theorem grantCredits_power_pmbLog : s.grantCredits.power.pmbLog = s.power.pmbLog := (congrArg Power.pmbLog (foldl_keeps State.power _ (fun _ _ => grantPort_power ..) _ _)).trans rfl
@[simp] theorem grantCredits_power_group : s.grantCredits.power.group = s.power.group := (congrArg Power.group (foldl_keeps State.power _ (fun _ _ => grantPort_power ..) _ _)).trans rfl
@[simp] theorem grantCredits_power_precond : s.grantCredits.power.precond = s.power.precond := (congrArg Power.precond (foldl_keeps State.power _ (fun _ _ => grantPort_power ..) _ _)).trans rfl
@[simp] theorem grantCredits_power_flush : s.grantCredits.power.flush = s.power.flush := (congrArg Power.flush (foldl_keeps State.power _ (fun _ _ => grantPort_power ..) _ _)).trans rfl
@[simp] theorem grantCredits_power_thermal : s.grantCredits.power.thermal = s.power.thermal := (congrArg Power.thermal (foldl_keeps State.power _ (fun _ _ => grantPort_power ..) _ _)).trans rfl
@[simp] theorem grantCredits_power_aborted : s.grantCredits.power.aborted = s.power.aborted := (congrArg Power.aborted (foldl_keeps State.power _ (fun _ _ => grantPort_power ..) _ _)).trans rfl
@[simp] theorem grantCredits_power_returned : s.grantCredits.power.returned = s.power.returned := (congrArg Power.returned (foldl_keeps State.power _ (fun _ _ => grantPort_power ..) _ _)).trans rfl
@[simp] theorem grantCredits_power_trigBeat : s.grantCredits.power.trigBeat = s.power.trigBeat := (congrArg Power.trigBeat (foldl_keeps State.power _ (fun _ _ => grantPort_power ..) _ _)).trans rfl
@[simp] theorem grantCredits_power_thermShut : s.grantCredits.power.thermShut = s.power.thermShut := (congrArg Power.thermShut (foldl_keeps State.power _ (fun _ _ => grantPort_power ..) _ _)).trans rfl
@[simp] theorem grantCredits_power_thermAt : s.grantCredits.power.thermAt = s.power.thermAt := (congrArg Power.thermAt (foldl_keeps State.power _ (fun _ _ => grantPort_power ..) _ _)).trans rfl
@[simp] theorem grantCredits_power_thermL : s.grantCredits.power.thermL = s.power.thermL := (congrArg Power.thermL (foldl_keeps State.power _ (fun _ _ => grantPort_power ..) _ _)).trans rfl
@[simp] theorem grantCredits_power_replaceL : s.grantCredits.power.replaceL = s.power.replaceL := (congrArg Power.replaceL (foldl_keeps State.power _ (fun _ _ => grantPort_power ..) _ _)).trans rfl
@[simp] theorem grantCredits_power_secAlarmL : s.grantCredits.power.secAlarmL = s.power.secAlarmL := (congrArg Power.secAlarmL (foldl_keeps State.power _ (fun _ _ => grantPort_power ..) _ _)).trans rfl
@[simp] theorem grantCredits_power_statusOut : s.grantCredits.power.statusOut = s.power.statusOut := (congrArg Power.statusOut (foldl_keeps State.power _ (fun _ _ => grantPort_power ..) _ _)).trans rfl
@[simp] theorem grantCredits_power_svcSamples : s.grantCredits.power.svcSamples = s.power.svcSamples := (congrArg Power.svcSamples (foldl_keeps State.power _ (fun _ _ => grantPort_power ..) _ _)).trans rfl
@[simp] theorem grantCredits_power_svcFailed : s.grantCredits.power.svcFailed = s.power.svcFailed := (congrArg Power.svcFailed (foldl_keeps State.power _ (fun _ _ => grantPort_power ..) _ _)).trans rfl
@[simp] theorem grantCredits_power_thermReport : s.grantCredits.power.thermReport = s.power.thermReport := (congrArg Power.thermReport (foldl_keeps State.power _ (fun _ _ => grantPort_power ..) _ _)).trans rfl
@[simp] theorem grantCredits_power_holdCeil : s.grantCredits.power.holdCeil = s.power.holdCeil := (congrArg Power.holdCeil (foldl_keeps State.power _ (fun _ _ => grantPort_power ..) _ _)).trans rfl
@[simp] theorem grantCredits_power_ceilAt : s.grantCredits.power.ceilAt = s.power.ceilAt := (congrArg Power.ceilAt (foldl_keeps State.power _ (fun _ _ => grantPort_power ..) _ _)).trans rfl
@[simp] theorem grantCredits_power_belowFloor : s.grantCredits.power.belowFloor = s.power.belowFloor := (congrArg Power.belowFloor (foldl_keeps State.power _ (fun _ _ => grantPort_power ..) _ _)).trans rfl
@[simp] theorem grantCredits_power_projAtTrig : s.grantCredits.power.projAtTrig = s.power.projAtTrig := (congrArg Power.projAtTrig (foldl_keeps State.power _ (fun _ _ => grantPort_power ..) _ _)).trans rfl
@[simp] theorem grantCredits_power_sramLoss : s.grantCredits.power.sramLoss = s.power.sramLoss := (congrArg Power.sramLoss (foldl_keeps State.power _ (fun _ _ => grantPort_power ..) _ _)).trans rfl
end Sys2Proof.Machine
end

