-- ==== Sys2Proof/Laws/Mail.lean ====
section
/-! SUPPORT. What a mailbox that is ready does with a command: it runs at once, is answered, and rings no interrupt. -/

namespace Sys2Proof.Machine

variable (s : State) (p : Port)

/-- What a ready mailbox holds, one part after another. -/
theorem parts_of_mailReady (h : s.mailReady p = true) : s.ioOpen p = true ∧ (s.head p).enabled = true ∧ (s.head p).mboxReady = true ∧
    (s.head p).doorbells = [] ∧ s.firm.act = none ∧ s.firm.store = none ∧ s.firm.fences = [] ∧ (s.head p).dbInt = false ∧ (s.head p).muted = false := by
  simp only [State.mailReady, Bool.and_eq_true, List.isEmpty_iff, Option.isNone_iff_eq_none, Bool.not_eq_true'] at h
  exact ⟨h.1.1.1.1.1.1.1.1.1, h.1.1.1.1.1.1.1.1.2, h.1.1.1.1.1.1.1.2, h.1.1.1.1.1.1.2, h.1.1.1.1.1.2, h.1.1.1.1.2, h.1.1.1.2, h.1.1.2, h.1.2⟩

theorem door_of_mailReady (h : s.mailReady p = true) (alone : Bool) : s.door (.head p) alone = .run := by
  obtain ⟨h1, h2, h3, h4, h5, h6, h7, -, -⟩ := parts_of_mailReady s p h
  simp [State.door, State.headBusy, State.othersBusy, h1, h2, h3, h4, h5, h6, h7]

theorem dbInt_of_mailReady (h : s.mailReady p = true) : (s.head p).dbInt = false :=
  (parts_of_mailReady s p h).2.2.2.2.2.2.2.1

theorem muted_of_mailReady (h : s.mailReady p = true) : (s.head p).muted = false :=
  (parts_of_mailReady s p h).2.2.2.2.2.2.2.2

theorem present_of_mailReady (h : s.mailReady p = true) : s.present p = true := by
  have := (parts_of_mailReady s p h).1
  simp only [State.ioOpen, Bool.and_eq_true] at this
  exact this.1

/-- A ready mailbox runs a command at once. -/
theorem take_ready (h : s.mailReady p = true) (i : Instr) (alone : Bool) (busy : Out) (run : State → State) :
    s.take (.head p) i alone busy run = run s := by
  simp [State.take, door_of_mailReady s p h]

/-- With the doorbell interrupt off, an answer adds one reply. -/
theorem answer_quiet (h : (s.head p).dbInt = false) (c : Rc) (r : StdReply) : s.answer (.head p) c r = s.said p c r := by
  simp [State.answer, State.rung, State.said, h]; rfl

/-- A standard command at a ready mailbox that holds its role runs. -/
theorem std_ready (h : s.mailReady p = true) (i : Instr) (alone : Bool) (role : Option Nat) (sb : Bool) (run : State → State)
    (hr : s.roleHeld p role = true) : s.std (.head p) i alone role sb run = run s := by
  unfold State.std
  rw [take_ready s p h]
  cases role with
  | none => rfl
  | some r =>
    have : s.hasRole (.head p) r = true := hr
    simp [this]

/-- A standard command that asks no role runs at a ready mailbox. -/
theorem std_ready_any (h : s.mailReady p = true) (i : Instr) (alone : Bool) (sb : Bool) (run : State → State) :
    s.std (.head p) i alone none sb run = run s := std_ready s p h i alone none sb run rfl

/-- A standard command whose role is held runs at a ready mailbox. -/
theorem std_ready_role (h : s.mailReady p = true) (r : Nat) (hr : (s.roles p).getLsbD r = true) (i : Instr) (alone : Bool) (sb : Bool)
    (run : State → State) : s.std (.head p) i alone (some r) sb run = run s := std_ready s p h i alone (some r) sb run hr

/-- What a vendor command's result makes of the state at a quiet head, untagged. -/
def VRes.settle (p : Port) (op : BitVec 16) : VRes → State → State
  | .ok out t, _ => t.respond (.head p) 0 0 .success (vHead 0 0 0 ++ out)
  | .no e, s => s.respond (.head p) 0 0 .vendorSpecific (vHead e 0 e)
  | .noWith e t, _ => t.respond (.head p) 0 0 .vendorSpecific (vHead e 0 e)
  | .bg k t, _ => ((t.updHead p (fun h => { h with bg := some ⟨k, op, 0, 0, false, 0⟩ })).emit (.mailbox (.head p) .backgroundStarted (vHead 0 0 0))).rung (.head p)
  | .later t, _ => t

/-- A vendor command at a ready mailbox, untagged, its role held, nothing it changes in change: it runs. -/
theorem vendor_ready (i : Instr) (pl : List Byte) (v : VSpec) (run : State → VRes) (h : s.vendorReady p v.role v.min pl = true)
    (hb : v.bg = true → (s.head p).bg = none) (hc : v.clash s = none) :
    s.vendor (.head p) i pl v run = (run s).settle p v.op s := by
  simp only [State.vendorReady, Bool.and_eq_true, decide_eq_true_eq] at h
  obtain ⟨⟨⟨⟨⟨hm, hf⟩, hmin⟩, hmax⟩, ht⟩, hr⟩ := h
  have hf' : (s.power.flush != .idle) = false := by simpa using hf
  unfold State.vendor
  rw [take_ready s p hm]
  have h1 : ¬ (65536 < pl.length) := by omega
  have h2 : ¬ (pl.length < v.min) := by omega
  have hb' : (v.bg && (some (s.head p)).any (fun h => h.bg.isSome)) = false := by
    cases hvb : v.bg with
    | false => rfl
    | true => simp [hb hvb]
  obtain ⟨op, min, role, sb, bg, alone, clash, denied⟩ := v
  dsimp only at *
  cases role with
  | none =>
    simp only [ht, hf', h1, h2, hb', hc]
    simp
    cases run s <;> simp [VRes.settle]
  | some r =>
    have hr' : s.hasRole (.head p) r = true := hr
    simp only [ht, hf', h1, h2, hb', hc, hr']
    simp
    cases run s <;> simp [VRes.settle]

/-- An untagged response at a quiet head adds one mailbox output. -/
theorem respond_quiet (h : (s.head p).dbInt = false) (hm : (s.head p).muted = false) (c : Rc) (pl : List Byte) :
    s.respond (.head p) 0 0 c pl = { s with out := .mailbox (.head p) c pl :: s.out } := by
  simp [State.respond, State.rung, h, hm]; rfl

end Sys2Proof.Machine
end

