-- ==== Sys2Proof/Laws/More.lean ====
section
/-! SUPPORT. Byte fields, ledger copies, sparse tables and byte memories: what a read gives after a write, and that every memory
operation keeps the canonical form. -/

namespace Sys2Proof.Machine

/-! ### Fields of byte lists -/

@[simp] theorem leBytes_length (n v : Nat) : (leBytes n v).length = n := by simp [leBytes]

/-- The value of n little-endian bytes is the number modulo 256ⁿ. -/
theorem leVal_leBytes (n v : Nat) : leVal (leBytes n v) = v % 256 ^ n := by
  induction n generalizing v with
  | zero => simp [leBytes, leVal, Nat.mod_one]
  | succ n ih =>
    have h : leBytes (n + 1) v = BitVec.ofNat 8 v :: leBytes n (v / 256) := by
      simp only [leBytes, List.range_succ_eq_map, List.map_cons, List.map_map, Nat.pow_zero, Nat.div_one, List.cons.injEq, true_and]
      apply List.map_congr_left
      intro i _
      simp only [Function.comp, Nat.succ_eq_add_one, Nat.pow_succ, Nat.mul_comm, Nat.div_div_eq_div_mul]
    have e : leVal (leBytes (n + 1) v) = (BitVec.ofNat 8 v).toNat + 256 * leVal (leBytes n (v / 256)) := by rw [h]; rfl
    rw [e, ih, Nat.pow_succ, Nat.mul_comm (256 ^ n) 256, Nat.mod_mul]
    simp

theorem bytesAt_skip (a rest : List Byte) (i n : Nat) (h : a.length ≤ i) : bytesAt (a ++ rest) i n = bytesAt rest (i - a.length) n := by
  simp only [bytesAt]
  apply List.map_congr_left
  intro t _
  simp only [List.getD_eq_getElem?_getD]
  rw [List.getElem?_append_right (by omega)]
  congr 2
  omega

theorem bytesAt_head (a rest : List Byte) : bytesAt (a ++ rest) 0 a.length = a := by
  apply List.ext_getElem
  · simp [bytesAt]
  · intro i h1 h2
    simp [bytesAt, List.getD_eq_getElem?_getD, List.getElem?_append_left h2, List.getElem?_eq_getElem h2]

/-- A field past a first part of known length. -/
theorem field_skip (n v : Nat) (rest : List Byte) (i m : Nat) (h : n ≤ i) : field (leBytes n v ++ rest) i m = field rest (i - n) m := by
  unfold field
  rw [bytesAt_skip _ _ _ _ (by simpa using h), leBytes_length]

/-- The field at the front. -/
theorem field_front (n v : Nat) (rest : List Byte) : field (leBytes n v ++ rest) 0 n = v % 256 ^ n := by
  unfold field
  have := bytesAt_head (leBytes n v) rest
  rw [leBytes_length] at this
  rw [this, leVal_leBytes]

/-! ### Ledger copies -/

/-- The next sequence is later (R479). -/
theorem seqLater_succ (x : BitVec 32) : seqLater (x + 1#32) x = true := by
  have h := x.isLt
  simp [seqLater] <;> omega

/-- A sequence is not later than the next. -/
theorem not_seqLater_succ (x : BitVec 32) : seqLater x (x + 1#32) = false := by
  have h := x.isLt
  simp [seqLater] <;> omega

/-- An update is in force at once (R480, R481). -/
@[simp] theorem Copies.cur_put {α : Type} (c : Copies α) (v : α) : (c.put v).cur = some v := by
  obtain ⟨a, b⟩ := c
  rcases a with _ | ⟨x, u⟩ <;> rcases b with _ | ⟨y, w⟩
  · rfl
  · simp [Copies.put, Copies.curSeq, Copies.cur, Copies.useA, not_seqLater_succ]
  · simp [Copies.put, Copies.curSeq, Copies.cur, Copies.useA, seqLater_succ]
  · by_cases h : seqLater y x = true
    · simp [Copies.put, Copies.curSeq, Copies.cur, Copies.useA, h, not_seqLater_succ]
    · have h' : seqLater y x = false := by simpa using h
      simp [Copies.put, Copies.curSeq, Copies.cur, Copies.useA, h', seqLater_succ]

/-! ### Sparse tables -/

/-- Every key of a sorted table is above its first. -/
theorem SMap.sorted_tail {α : Type} {c : Nat × α} {m : SMap α} (h : SMap.sorted (c :: m) = true) : SMap.sorted m = true := by
  cases m with
  | nil => rfl
  | cons d rest =>
    simp only [SMap.sorted, Bool.and_eq_true] at h
    exact h.2

theorem SMap.sorted_head {α : Type} {c : Nat × α} {m : SMap α} (h : SMap.sorted (c :: m) = true) : ∀ d ∈ m, c.1 < d.1 := by
  induction m generalizing c with
  | nil => simp
  | cons d rest ih =>
    simp only [SMap.sorted, Bool.and_eq_true, decide_eq_true_eq] at h
    intro e he
    rcases List.mem_cons.mp he with rfl | he
    · exact h.1
    · exact Nat.lt_trans h.1 (ih h.2 e he)

theorem SMap.sorted_cons {α : Type} {c : Nat × α} {m : SMap α} (hm : SMap.sorted m = true) (h : ∀ d ∈ m, c.1 < d.1) :
    SMap.sorted (c :: m) = true := by
  cases m with
  | nil => rfl
  | cons d rest =>
    simp only [SMap.sorted, Bool.and_eq_true, decide_eq_true_eq]
    exact ⟨h d (List.mem_cons_self ..), hm⟩

/-- A key above the first listed one of a sorted table is not before it, so a lookup past it finds nothing. -/
theorem SMap.get?_none {α : Type} (m : SMap α) (a : Nat) (h : ∀ d ∈ m, a < d.1) : SMap.get? m a = none := by
  induction m with
  | nil => rfl
  | cons c rest ih =>
    have hc := h c (List.mem_cons_self ..)
    have : ¬ c.1 = a := by omega
    simp only [SMap.get?, this, if_false]
    exact ih (fun d hd => h d (List.mem_cons_of_mem _ hd))

/-- What a table lists after a value is put at a key. -/
theorem SMap.get?_put {α : Type} (m : SMap α) (a b : Nat) (v : α) :
    SMap.get? (SMap.put m a v) b = if a = b then some v else SMap.get? m b := by
  induction m with
  | nil => simp [SMap.put, SMap.get?]
  | cons c rest ih =>
    simp only [SMap.put]
    split
    · simp [SMap.get?]
    · split
      · rename_i h
        by_cases hb : a = b
        · simp [SMap.get?, hb]
        · simp [SMap.get?, h, hb]
      · rename_i h1 h2
        simp only [SMap.get?, ih]
        by_cases hb : a = b
        · subst hb; simp [h2]
        · simp [hb]

/-- Putting a key keeps the keys rising. -/
theorem SMap.sorted_put {α : Type} (m : SMap α) (a : Nat) (v : α) (h : SMap.sorted m = true) : SMap.sorted (SMap.put m a v) = true := by
  have mem : ∀ (m : SMap α) (d : Nat × α), d ∈ SMap.put m a v → d.1 = a ∨ d ∈ m := by
    intro m
    induction m with
    | nil => intro d hd; simp only [SMap.put, List.mem_singleton] at hd; exact Or.inl (by rw [hd])
    | cons c rest ih =>
      intro d hd
      simp only [SMap.put] at hd
      split at hd
      · rcases List.mem_cons.mp hd with rfl | hd
        · exact Or.inl rfl
        · exact Or.inr hd
      · split at hd
        · rcases List.mem_cons.mp hd with rfl | hd
          · exact Or.inl rfl
          · exact Or.inr (List.mem_cons_of_mem _ hd)
        · rcases List.mem_cons.mp hd with rfl | hd
          · exact Or.inr (List.mem_cons_self ..)
          · rcases ih d hd with h | h
            · exact Or.inl h
            · exact Or.inr (List.mem_cons_of_mem _ h)
  induction m with
  | nil => rfl
  | cons c rest ih =>
    have ht := SMap.sorted_tail h
    have hh := SMap.sorted_head h
    simp only [SMap.put]
    split
    · rename_i hlt
      refine SMap.sorted_cons h (fun d hd => ?_)
      rcases List.mem_cons.mp hd with rfl | hd
      · exact hlt
      · exact Nat.lt_trans hlt (hh d hd)
    · split
      · rename_i he
        exact SMap.sorted_cons ht (fun d hd => by have := hh d hd; simp only; omega)
      · rename_i h1 h2
        refine SMap.sorted_cons (ih ht) (fun d hd => ?_)
        rcases mem rest d hd with h | h
        · simp only; omega
        · exact hh d h

/-- Removing keys keeps the rest rising. -/
theorem SMap.sorted_filter {α : Type} (m : SMap α) (f : Nat × α → Bool) (h : SMap.sorted m = true) : SMap.sorted (m.filter f) = true := by
  induction m with
  | nil => rfl
  | cons c rest ih =>
    have ht := SMap.sorted_tail h
    have hh := SMap.sorted_head h
    by_cases hc : f c = true
    · rw [List.filter_cons_of_pos hc]
      exact SMap.sorted_cons (ih ht) (fun d hd => hh d ((List.mem_filter.mp hd).1))
    · rw [List.filter_cons_of_neg hc]
      exact ih ht

/-- What a table lists after a key is removed. -/
theorem SMap.get?_del {α : Type} (m : SMap α) (a b : Nat) : SMap.get? (SMap.del m a) b = if a = b then none else SMap.get? m b := by
  unfold SMap.del
  induction m with
  | nil => simp [SMap.get?]
  | cons c rest ih =>
    by_cases hc : c.1 = a
    · have : (c.1 != a) = false := by simp [hc]
      rw [List.filter_cons_of_neg (by simp [hc]), ih]
      by_cases hb : a = b
      · simp [hb]
      · simp [SMap.get?, hc, hb]
    · rw [List.filter_cons_of_pos (by simp [hc])]
      simp only [SMap.get?, ih]
      by_cases hb : a = b
      · subst hb; simp [hc]
      · simp [hb]

/-! ### Byte memories: the label storage area and the rail configuration pages -/

/-- A byte after a byte is written. -/
theorem Mem.read_write (m : List Host.Cell) (a b : Nat) (v : Byte) : Mem.read (Mem.write m a v) b = if a = b then v else Mem.read m b := by
  unfold Mem.read Mem.write SMap.getD
  by_cases hv : v = 0
  · simp only [hv, if_true, SMap.get?_del]
    by_cases hb : a = b <;> simp [hb]
  · simp only [hv, if_false, SMap.get?_put]
    by_cases hb : a = b <;> simp [hb]

/-- Writing a byte keeps the canonical form. -/
theorem Mem.wf_write (m : List Host.Cell) (a : Nat) (v : Byte) (h : Mem.wf m = true) : Mem.wf (Mem.write m a v) = true := by
  simp only [Mem.wf, Bool.and_eq_true, List.all_eq_true] at h ⊢
  unfold Mem.write
  split
  · refine ⟨SMap.sorted_filter _ _ h.1, fun c hc => h.2 c ((List.mem_filter.mp hc).1)⟩
  · rename_i hv
    refine ⟨SMap.sorted_put _ _ _ h.1, ?_⟩
    have : ∀ (m : List Host.Cell), (∀ c ∈ m, (c.2 != 0) = true) → ∀ c ∈ SMap.put m a v, (c.2 != 0) = true := by
      intro m
      induction m with
      | nil => intro _ c hc; simp only [SMap.put, List.mem_singleton] at hc; subst hc; simpa using hv
      | cons d rest ih =>
        intro hm c hc
        simp only [SMap.put] at hc
        split at hc
        · rcases List.mem_cons.mp hc with rfl | hc
          · simpa using hv
          · exact hm c hc
        · split at hc
          · rcases List.mem_cons.mp hc with rfl | hc
            · simpa using hv
            · exact hm c (List.mem_cons_of_mem _ hc)
          · rcases List.mem_cons.mp hc with rfl | hc
            · exact hm _ (List.mem_cons_self ..)
            · exact ih (fun e he => hm e (List.mem_cons_of_mem _ he)) c hc
    exact this m h.2

/-- Writing bytes keeps the canonical form. -/
theorem Mem.wf_writeAll (m : List Host.Cell) (a : Nat) (bs : List Byte) (h : Mem.wf m = true) : Mem.wf (Mem.writeAll m a bs) = true := by
  induction bs generalizing m a with
  | nil => exact h
  | cons b bs ih => exact ih _ _ (Mem.wf_write m a b h)

/-- A byte outside the bytes written reads as before, one inside reads what was written. -/
theorem Mem.read_writeAll (m : List Host.Cell) (a b : Nat) (bs : List Byte) :
    Mem.read (Mem.writeAll m a bs) b = if a ≤ b ∧ b < a + bs.length then bs.getD (b - a) 0 else Mem.read m b := by
  induction bs generalizing m a with
  | nil =>
    have : ¬ (a ≤ b ∧ b < a + ([] : List Byte).length) := by simp
    rw [if_neg this]
    rfl
  | cons c bs ih =>
    rw [Mem.writeAll, ih, Mem.read_write]
    by_cases h : a = b
    · subst h
      have h1 : ¬ (a + 1 ≤ a ∧ a < a + 1 + bs.length) := by omega
      simp [h1]
    · by_cases h1 : a + 1 ≤ b ∧ b < a + 1 + bs.length
      · have h2 : a ≤ b ∧ b < a + (bs.length + 1) := by omega
        have h3 : b - a = (b - (a + 1)) + 1 := by omega
        simp [h1, h2, h3]
      · have h2 : ¬ (a ≤ b ∧ b < a + (bs.length + 1)) := by omega
        simp only [List.length_cons, if_neg h1, if_neg h2, if_neg h]

/-- Writing a page of the ledger keeps the canonical form. -/
theorem wf_writePage (m : List Host.Cell) (off : Nat) (bs : List Byte) (h : Mem.wf m = true) : Mem.wf (writePage m off bs) = true := by
  unfold writePage
  generalize bs.zipIdx = l
  induction l generalizing m with
  | nil => exact h
  | cons b l ih =>
    refine ih _ ?_
    dsimp only
    split
    · exact h
    · exact Mem.wf_write m _ _ h

/-! ### Vendor commands at a ready mailbox -/

/-- A vendor query: run gives its output and the same state. -/
theorem vendor_told {s : State} {p : Port} {i : Instr} {pl : List Byte} {v : VSpec} {run : State → VRes} (out : List Byte)
    (h : s.vendorReady p v.role v.min pl = true) (hb : v.bg = true → (s.head p).bg = none) (hc : v.clash s = none) (hr : run s = .ok out s) :
    s.vendor (.head p) i pl v run = s.told p out := by
  have hm : s.mailReady p = true := by
    simp only [State.vendorReady, Bool.and_eq_true] at h
    exact h.1.1.1.1.1
  rw [vendor_ready s p i pl v run h hb hc, hr]
  exact respond_quiet s p (dbInt_of_mailReady s p hm) (muted_of_mailReady s p hm) _ _

/-- A vendor command that succeeds at once with a new state. -/
theorem vendor_done {s : State} {p : Port} {i : Instr} {pl : List Byte} {v : VSpec} {run : State → VRes} (out : List Byte) (t : State)
    (h : s.vendorReady p v.role v.min pl = true) (hb : v.bg = true → (s.head p).bg = none) (hc : v.clash s = none) (hr : run s = .ok out t)
    (hq : (t.head p).dbInt = false) (hm : (t.head p).muted = false) : s.vendor (.head p) i pl v run = t.told p out := by
  rw [vendor_ready s p i pl v run h hb hc, hr]
  exact respond_quiet t p hq hm _ _

end Sys2Proof.Machine
end

