-- ==== Sys2Proof/WellFormed.lean ====
section
/-! DEFINITION. What a command must look like to be one that the device can meet: operands inside the ranges of
Table 00-5 (R18) and of the tables that name them. A command that is not well formed still has a meaning (its operands
name nothing that exists, and nothing changes). -/

namespace Sys2Proof

/-- A device or host physical address: 46 bits for lines (R117). -/
def addrOk (a : Nat) : Bool := a < 2 ^ 52

/-- A register window offset: below 64 KiB and 4-byte aligned (R77, Table 02-8). -/
def offOk (off : Nat) : Bool := off < 0x10000 && off % 4 == 0

/-- An offset a host reads or writes: in the register window, or 64 KiB above it in the function's 4 KiB configuration space (log entry 67). -/
def hostOffOk (off : Nat) : Bool := off < 0x11000 && off % 4 == 0

/-- A mailbox payload: at most 64 KiB (R364). -/
def payloadOk (pl : List Byte) : Bool := pl.length ≤ 65536

/-- A media block (R18). -/
def blockOk (b : Nat) : Bool := b < 16384

/-- A front-store frame (R115). -/
def frameOk (f : Nat) : Bool := f < 131072

/-- A front-store set (R115). -/
def setOk (n : Nat) : Bool := n < 8192

/-- A descriptor of the region table (R18). -/
def regionOk (r : Nat) : Bool := r < 16384

/-- A key slot (R336). -/
def slotOk (n : Nat) : Bool := 0 < n && n < 2048

/-- What a drain reads of the front store names frames (R115), spill entries (R125), and lines of its page or its two nodes with eight words each (R108). -/
def drainOk (r : DrainRead) : Bool :=
  r.hdrs.all (fun h => frameOk h.frame) && r.records.all (fun x => x.entry < 2048) && r.shadows.all frameOk &&
    r.errs.all (fun e => e.1 < 66 && e.2.length ≤ 8)

/-- A tree level and index of one slice (Table 10-4). -/
def nodeOk (level idx : Nat) : Bool := level ≤ 8 && idx < 2 ^ 26

/-- The checks a command of each constructor must pass. -/
def Instr.wellFormed : Instr → Bool
  | .cxlMemWrite _ hpa _ _ _ e => addrOk hpa && e.words.length ≤ 8
  | .cxlMemRead _ hpa r _ => addrOk hpa && r.errs.length ≤ 24
  | .directorySetRebuild _ r => setOk r.set && r.hdrs.all (fun h => frameOk h.frame) && r.shadows.all frameOk
  | .relayFecFailure a f => a < f.dst
  | .relayRetrain a b _ => a < b
  | .shadowRefresh _ off => offOk off
  | .registerWrite _ off wide _ => hostOffOk off && (!wide || off % 8 == 0)
  | .regLowHalfRead _ r => hostOffOk r.off && (!r.wide || r.off % 8 == 0)
  | .transferFw _ slot _ off data => slot < 256 && off < 2 ^ 32 && payloadOk data
  | .activateFw _ slot _ => slot < 256
  | .clearEventRecords _ _ _ hs => hs.length ≤ 256
  | .getLsa _ off len => off < 2 ^ 32 && len < 2 ^ 32
  | .setLsa _ off data => off < 2 ^ 32 && payloadOk data
  | .injectPoison _ dpa => addrOk dpa
  | .clearPoison _ dpa _ => addrOk dpa
  | .getPoisonList _ base _ => addrOk base
  | .identifyExt _ pl => payloadOk pl
  | .profileGet _ pl => payloadOk pl
  | .profileSelect _ pl => payloadOk pl
  | .profileWrite _ pl => payloadOk pl
  | .regionCreate _ pl => payloadOk pl
  | .regionModify _ pl => payloadOk pl
  | .regionDestroy _ pl => payloadOk pl
  | .regionDestroyComplete r => regionOk r
  | .regionDiscard _ pl => payloadOk pl
  | .discardPage r group => regionOk r && group < 2 ^ 34
  | .discardComplete r => regionOk r
  | .regionQuery _ pl => payloadOk pl
  | .apertureSet _ pl => payloadOk pl
  | .writeGroupFence _ pl => payloadOk pl
  | .keyLoad _ pl => payloadOk pl
  | .keyRetire _ pl => payloadOk pl
  | .keyRetireDrained n => slotOk n
  | .keyQuarantineEnd n => slotOk n
  | .rekeyChunkComplete r => regionOk r
  | .frameDirtyAgeExpire _ f => frameOk f
  | .treeWritebackDeadline _ level idx => nodeOk level idx
  | .treeNodeWriteback _ level idx r => nodeOk level idx && drainOk r
  | .calibrationRead _ _ _ blk _ => blockOk blk
  | .scrubRead _ _ _ blk page sector _ => blockOk blk && page < 1024 && sector < 16
  | .blockReset _ _ _ blk => blockOk blk
  | .regionRekey _ pl => payloadOk pl
  | .ledgerWrite _ pl => payloadOk pl
  | .descriptorFillLand _ => true
  | .mediaReadStep _ _ _ => true
  | .patientReadDeadline _ _ => true
  | .treeNodeFetch _ _ _ _ => true
  | .readFillLand _ _ _ => true
  | .backgroundRepair _ _ _ => true
  | .repairFrameRetry _ => true
  | .sramWordRewrite _ => true
  | .sramPatrol _ _ => true
  | .linkTraining _ _ => true
  | .ideKmMessage _ _ _ => true
  | .ideMacFailure _ _ => true
  | .gpfRequest _ _ => true
  | .perst _ => true
  | .hotReset _ => true
  | .meterWindow _ => true
  | .secAlarmClear _ => true
  | .tqDataRead _ _ => true
  | .tqFlush _ _ => true
  | .unsupportedOpcode _ _ => true
  | .identify _ => true
  | .backgroundOperationStatus _ => true
  | .getResponseMessageLimit _ => true
  | .requestAbortBackgroundOperation _ => true
  | .backgroundAbortBoundary _ => true
  | .getEventRecords _ _ => true
  | .getEventInterruptPolicy _ => true
  | .setEventInterruptPolicy _ _ _ _ _ => true
  | .getFwInfo _ => true
  | .fwTransferEnd _ _ => true
  | .fwReadyPoint _ => true
  | .fwActivationTimeout _ => true
  | .getTimestamp _ => true
  | .setTimestamp _ _ => true
  | .getSupportedLogs _ => true
  | .getLog _ _ _ _ => true
  | .identifyMemoryDevice _ => true
  | .getPartitionInfo _ => true
  | .getHealthInfo _ => true
  | .getAlertConfiguration _ => true
  | .setAlertConfiguration _ _ => true
  | .getShutdownState _ => true
  | .setShutdownState _ _ => true
  | .getScanMediaCapabilities _ _ _ => true
  | .scanMedia _ _ _ => true
  | .getScanMediaResults _ => true
  | .writeGroupCommit => true
  | .keyQuery _ pl => payloadOk pl
  | .epochSet _ pl => payloadOk pl
  | .beatStatus _ pl => payloadOk pl
  | .lensCalibrate _ pl => payloadOk pl
  | .pacerGet _ pl => payloadOk pl
  | .pacerSet _ pl => payloadOk pl
  | .arbWeightsSet _ pl => payloadOk pl
  | .arbParamArrive _ _ => true
  | .arbStats _ pl => payloadOk pl
  | .countersConfig _ pl => payloadOk pl
  | .countersConfigApply _ => true
  | .countersUserAccess _ pl => payloadOk pl
  | .ledgerRead _ pl => payloadOk pl
  | .ledgerStore _ pl => payloadOk pl
  | .ledgerStoreEnd _ => true
  | .healthExt _ pl => payloadOk pl
  | .retireList _ pl => payloadOk pl
  | .sramRetire _ pl => payloadOk pl
  | .sramRetireComplete _ => true
  | .sliceQuiesce _ pl => payloadOk pl
  | .sliceQuiesced _ => true
  | .quiesceTimeout _ => true
  | .sliceReset _ pl => payloadOk pl
  | .portReset _ pl => payloadOk pl
  | .packageReset _ pl => payloadOk pl
  | .packageResetAssert => true
  | .bootRecordGet _ pl => payloadOk pl
  | .railLogGet _ pl => payloadOk pl
  | .debugUnlock _ pl _ => payloadOk pl
  | .telemetryConfig _ pl => payloadOk pl
  | .holdupStatus _ pl => payloadOk pl
  | .watchdog _ => true
  | .lockup => true
  | .managementRestartComplete => true
  | .beatEdge _ _ => true
  | .beatCodeFrame => true
  | .beatLost _ => true
  | .derivedBeat => true
  | .beatReturn _ _ _ => true
  | .epochProvisional => true
  | .exactPass _ => true
  | .measuredPassBlock _ _ _ => true
  | .lapBoundary _ => true
  | .splitEnd _ => true
  | .telemetrySnapshot => true
  | .rhoSample _ => true
  | .holdupCeilingRecompute => true
  | .ageSweep _ => true
  | .dupEntryExpire _ _ => true
  | .calibrationInterval _ _ _ => true
  | .scrubPassLate _ _ _ => true
  | .mapRecordMandatory _ => true
  | .tempReadout _ _ _ _ _ => true
  | .channelTracking _ _ => true
  | .alertAsserted _ _ _ _ => true
  | .alertStuckTimeout _ _ _ => true
  | .burstLost _ _ _ => true
  | .channelRetrain _ _ _ _ => true
  | .arbitrationDecision _ _ => true
  | .grantEffect _ _ _ => true
  | .tenureEnd _ _ => true
  | .holdLimitCutoff _ _ => true
  | .lockOwnerFault _ _ => true
  | .bankResume _ _ _ _ => true
  | .runWindowStart _ _ _ _ _ => true
  | .runWindowEnd _ _ _ _ _ => true
  | .arrayOperationComplete _ _ _ _ => true
  | .journalDrain _ _ r => drainOk r
  | .drainCommit _ _ _ => true
  | .journalWriteFail _ _ _ => true
  | .foldOpen _ _ => true
  | .foldPageProgram _ _ _ _ => true
  | .foldRowVerify _ _ _ _ => true
  | .foldCommit _ _ _ => true
  | .gcStart _ _ _ => true
  | .gcPageCopy _ _ _ _ _ => true
  | .gcRelease _ _ _ => true
  | .mapJournalCopy _ => true
  | .checkpoint _ => true
  | .groupReencryption _ _ _ => true
  | .powerOnReset => true
  | .brownOut _ => true
  | .resetPin _ => true
  | .dbgReset _ => true
  | .clockFailure _ => true
  | .servicePllUnlock => true
  | .dbgEnFall => true
  | .debugMemoryAccess _ => true
  | .bootStepAttempt _ _ _ => true
  | .bootRecordUart => true
  | .coldStartPrecondition _ => true
  | .railGroupEnable => true
  | .railUpTimeout _ _ => true
  | .epochWaitEnd => true
  | .railSample _ _ => true
  | .railWarning _ _ _ => true
  | .railFailure _ _ => true
  | .railRecoveryAttempt _ _ => true
  | .railRecovered _ _ => true
  | .sramArrayRailLoss => true
  | .pmbAlert _ _ _ => true
  | .powerFailTrigger _ => true
  | .acceptanceWindowClose _ => true
  | .flushSliceDone _ => true
  | .flushAbort _ => true
  | .holdupMarginMeasured _ _ => true
  | .warmReturn _ => true
  | .thermalSample _ _ => true
  | .sramTimingSetChange _ => true
  | .keeperWrite _ => true
  | .keeperRead _ => true
  | .hdmDecoderCommit _ _ _ => true
  | .frOverBound _ _ => true
  | .refclkStop _ => true
  | .jtagBoundaryScanInstruction _ => true
  | .resetSourceRelease _ => true

end Sys2Proof
end

