-- ==== Sys2Proof/Tests/Slice0.lean ====
section
/-! SUPPORT. Tests of the model: what the well-formedness check refuses, and for each statement's clauses a small state and operands that meet the
clause's hypotheses, with what the command gives there. Expected values come from the rules of spec/ that the statement names. -/

open Sys2Proof Sys2Proof.Machine

namespace Sys2Proof.Tests

set_option Elab.async false

/-- The state a command leaves. -/
def after (i : Instr) (s : State) : State := match exec i s with | .next t => t | _ => s

/-- The newest output. -/
def said? (i : Instr) (s : State) : Option Out := (after i s).out.head?

/-- An untagged payload of 80 bytes at least. -/
def pay (bs : List Byte) : List Byte := [0, 0, 0, 0] ++ bs ++ List.replicate (76 - bs.length) 0

/-- A payload under a tag. -/
def tagged (n : Nat) (bs : List Byte) : List Byte := leBytes 2 n ++ [0, 0] ++ bs ++ List.replicate (76 - bs.length) 0

/-- A profile image that gives every port every role, permits Clear regions, starts to throttle at 95 °C and has a dirty ceiling of 512 MiB. -/
def image : List Byte := (List.range 128).map (fun i => if i = 32 then 1 else if i = 34 then 95 else if i = 37 then 2 else if 48 ≤ i ∧ i < 64 ∧ i % 2 = 0 then 0x1F else 0)

/-- An unpowered head made ready. -/
def head1 : Head := { Head.reset with enabled := true, mboxReady := true, link := some ⟨16, 64, .std256, .common, false⟩, credD := 256, credR := 256 }

/-- Four dies that answered. -/
def dies4 : Vector Die 8 := Vector.ofFn (fun d => if d.val < 4 then { Die.reset with present := true, valid := true, temp := 40, band := 2 } else Die.reset)

/-- A channel that is up. -/
def chan1 : Chan := { Chan.reset with up := true, window := 20, dies := dies4 }

/-- A working slice. -/
def slice1 : Slice := { Slice.reset with st := .working, ok := true, clkAlive := true, chans := Vector.replicate 16 chan1 }

/-- The ledger of a device with four dies a channel. -/
def led1 : Ledger := { Ledger.empty with media := ⟨some (1, ⟨4, [], Vector.replicate 8 0, []⟩), none⟩ }

/-- An 8S that has started, with no region. -/
def base : State :=
  { State.reset with
    heads := Vector.replicate 8 head1
    slices := Vector.replicate 8 slice1
    rst := { Rst.reset with todo := [], coldSteps := [], ready := true, servicePll := true }
    power := { Power.reset with rails := Vector.replicate 20 ⟨true, true, false, none, 900⟩, group := 5, precond := true, statusOut := true }
    led := led1
    prof := image
    firm := { Firm.reset with area0 := none }
    beat := { Beat.reset with loaded := true, taken := true, epoch := .code, now := 2 ^ 40, events := 2 ^ 26, step12 := some 0, firstBeat := some 0 } }

/-- A Clear, Local region of two granules on slice 0. -/
def desc1 : Desc := ⟨.active, .active, .clear, false, false, 0, false, false, 0, 0, 0, 0xFF, 0xFF, 0, 0, 2, 0, 1, 0, 0, []⟩

/-- The device with region 5 mapped, its descriptor in the cache of slice 0, and decoder 0 of head 0 committed. -/
def mapped (d : Desc) : State :=
  { base with
    desc := [(5, d)]
    index := [(0, ⟨5, 0⟩), (1, ⟨5, 1⟩)] }.updSlice 0 (fun x => { x with cache := [(0, ⟨5, false, some d⟩)] })
  |>.updHead 0 (fun h => { h with dec := h.dec.set 0 ⟨true, false, 0x100000000, 0x20000000, 0, 1, 256⟩ })

/-! ## What the well-formedness check refuses -/

/-- One command for each check, with an operand just past its range. -/
def illFormed : List Instr :=
  [.cxlMemRead 0 (2 ^ 52) ⟨[], 0⟩ .none, .cxlMemRead 0 64 ⟨List.replicate 25 0, 0⟩ .none, .cxlMemWrite 0 64 0 0 false ⟨List.replicate 9 0, .none⟩, .directorySetRebuild 0 ⟨8192, [], [], 0⟩, .directorySetRebuild 0 ⟨0, [⟨131072, true, [], []⟩], [], 0⟩, .directorySetRebuild 0 ⟨0, [], [131072], 0⟩, .journalDrain 0 0 ⟨[], [⟨131072, true, [], []⟩], [], [], []⟩,
    .journalDrain 0 0 ⟨[], [], [⟨2048, [], []⟩], [], []⟩, .treeNodeWriteback 0 2 0 ⟨[], [], [], [131072], []⟩, .journalDrain 0 0 ⟨[], [], [], [], [(66, [])]⟩, .relayFecFailure 3 ⟨3, 0⟩, .relayRetrain 4 3 true, .shadowRefresh 0 0x10000,
    .shadowRefresh 0 0x0002, .registerWrite 0 0x1004 true 0, .registerWrite 0 0x1002 false 0, .regLowHalfRead 0 ⟨0x11000, false⟩, .regLowHalfRead 0 ⟨0x1004, true⟩, .transferFw (.head 0) 256 .full 0 [], .activateFw (.head 0) 256 true,
    .clearEventRecords (.head 0) .informational false (List.replicate 257 0), .getLsa (.head 0) (2 ^ 32) 0, .injectPoison (.head 0) (2 ^ 52),
    .regionDestroyComplete 16384, .discardPage 5 (2 ^ 34), .keyQuarantineEnd 0, .keyQuarantineEnd 2048, .frameDirtyAgeExpire 0 131072,
    .treeWritebackDeadline 0 9 0, .treeWritebackDeadline 0 8 (2 ^ 26), .calibrationRead 0 0 0 16384 [], .scrubRead 0 0 0 0 1024 0 [], .scrubRead 0 0 0 0 0 16 [], .blockReset 0 0 0 16384]

theorem test_ill_formed : illFormed.all (fun i => !i.wellFormed) = true := by decide +kernel

theorem test_long_payload (src : Src) (n : Nat) : (Instr.identifyExt src (List.replicate n 0)).wellFormed = decide (n ≤ 65536) := by
  show decide ((List.replicate n (0 : Byte)).length ≤ 65536) = _
  rw [List.length_replicate]

/-- The same commands with the operand at the end of its range. -/
theorem test_well_formed : [Instr.cxlMemRead 0 (2 ^ 52 - 1) ⟨List.replicate 8 0, 0⟩ .none, .directorySetRebuild 0 ⟨8191, [⟨131071, true, [], []⟩], [], 0⟩, .journalDrain 0 0 ⟨[], [], [⟨2047, [], []⟩], [], [(65, List.replicate 8 0)]⟩, .regLowHalfRead 0 ⟨0x10FFC, false⟩, .relayFecFailure 2 ⟨3, 0⟩, .shadowRefresh 0 0xFFFC, .registerWrite 0 0xFFF8 true 0,
    .keyQuarantineEnd 2047, .treeWritebackDeadline 0 8 (2 ^ 26 - 1), .blockReset 0 0 0 16383].all (·.wellFormed) = true := by decide +kernel

/-! ## Reset -/

theorem test_reset : (State.reset.heads.toList.all (fun h => h.dup.isEmpty && !h.enabled && h.logs.toList.all (fun l => l.recs.isEmpty))) = true ∧
    State.reset.heads.toList.map (fun h => (h.tq.q.length, h.lsa.length)) = List.replicate 8 (0, 0) ∧ State.reset.pending = [] ∧ step State.reset = .next State.reset := ⟨by decide +kernel, by decide +kernel, rfl, rfl⟩

/-! ## Codes and ciphers -/

/-- Value of a binary polynomial of degree 11 at most at x. -/
def valueAt (m poly g x : Nat) : Nat := (List.range 12).reverse.foldl (fun v i => gfMul m poly v x ^^^ (g.testBit i).toNat) 0

/-- Product of binary polynomials, the second of degree 11 at most. -/
def clmul (a b : Nat) : Nat := (List.range 12).foldl (fun v i => if b.testBit i then v ^^^ (a <<< i) else v) 0

/-- Minimal polynomials of the odd powers of α in GF(2^10). -/
def minimal10 : List (Nat × Nat) := [(1, 0x409), (3, 0x40f), (5, 0x50d), (7, 0x7f9), (9, 0x4af), (11, 0x435)]

theorem test_codeword_generator : (minimal10.map (·.2)).foldl clmul 1 = cwGen ∧ (∀ q ∈ minimal10, valueAt 10 cwPoly q.2 (gfPow 10 cwPoly 2 q.1) = 0) ∧ minimal10.map (·.1) = [1, 3, 5, 7, 9, 11] := by decide +kernel

/-- Minimal polynomials of the odd powers of α in GF(2^9). -/
def minimal9 : List (Nat × Nat) := [(1, 0x211), (3, 0x259), (5, 0x331), (7, 0x299), (9, 0x313), (11, 0x22d), (13, 0x277), (15, 0x361), (17, 0x2db), (19, 0x385), (21, 0x217), (23, 0x3e9)]

theorem test_tag_generator : (minimal9.map (·.2)).foldl clmul 1 = tagGen ∧ (∀ q ∈ minimal9, valueAt 9 0x211 q.2 (gfPow 9 0x211 2 q.1) = 0) ∧
    minimal9.map (·.1) = [1, 3, 5, 7, 9, 11, 13, 15, 17, 19, 21, 23] := by decide +kernel

/-- The powers of 3 in the AES field; the inverse of the i-th is the (255 − i)-th. -/
def powers3 : List Nat := (List.range 255).map (fun i => (List.range i).foldl (fun x _ => aesMul x 3) 1)

/-- The affine map of FIPS 197. -/
def affine (b : Nat) : Nat := [1, 2, 3, 4].foldl (fun v n => v ^^^ ((b <<< n) ||| (b >>> (8 - n))) % 256) b ^^^ 0x63

theorem test_aes_sbox : aesS 0 = 0x63 ∧ (List.zipWith (fun x y => aesS x == affine y && aesInvS (aesS x) == x) powers3 (1 :: powers3.tail.reverse)).all id = true := by decide +kernel

/-- FIPS 197, appendix C.3. -/
theorem test_aes_256 : aesEncW (aesExpand (List.range 32)) ((List.range 16).map (· * 17)) =
    [0x8e, 0xa2, 0xb7, 0xca, 0x51, 0x67, 0x45, 0xbf, 0xea, 0xfc, 0x49, 0x90, 0x4b, 0x49, 0x60, 0x89] := by decide +kernel

/-- CRC-32C of the nine digits. -/
theorem test_crc32c : crc32c [0x31, 0x32, 0x33, 0x34, 0x35, 0x36, 0x37, 0x38, 0x39] = 0xE3069283 := by decide +kernel

/-- FIPS 180-4, the digest of "abc". -/
theorem test_sha384 : sha384 [0x61, 0x62, 0x63] = 0xcb00753f45a35e8bb5a03d699ac65007272c32ab0eded1631a8b605a43ff5bed8086072ba1e7cc2358baeca134c825a7 := by decide +kernel

/-! ## Steps, invariants, refusals -/

/-- Head 0 without one role. -/
def without (r : Nat) (s : State) : State := { s with prof := s.prof.set 48 (BitVec.ofNat 8 (31 - 2 ^ r)) }

/-- The flush runs. -/
def flushing : State := { base with power := { base.power with flush := .drain } }

theorem witness_StepsRunTheFrontCommand : base.pending = [] ∧ step base = .next base ∧
    step { base with pending := [.servicePllUnlock, .dbgEnFall] } = .next { base with rst := { base.rst with servicePll := false }, pending := [.dbgEnFall] } := ⟨rfl, rfl, rfl⟩

theorem witness_EveryStepKeepsTheBuild : (match step { base with pending := [.identify (.head 0), .getTimestamp (.head 1)] } with
    | .next t => decide (t.nSlices = 8 ∧ t.pending = [.getTimestamp (.head 1)])
    | _ => false) = true := by decide +kernel

theorem witness_EveryStepKeepsTheBounds : State.bounded base ∧ (step { base with pending := [.identify (.head 0)] } matches .next _) = true := by
  unfold State.bounded; decide +kernel

theorem witness_TheFlushRefusesVendorCommands_head : flushing.power.flush ≠ .idle ∧ flushing.mailReady 7 = true ∧
    after (.regionCreate (.head 7) (tagged 9 [])) flushing = flushing.refused (.head 7) (tagged 9 []) .vendorSpecific 0x0701 := by decide +kernel

theorem witness_TheFlushRefusesVendorCommands_i3c : flushing.door .i3c false = .run ∧
    after (.holdupStatus .i3c []) flushing = flushing.refused .i3c [] .vendorSpecific 0x0701 := by decide +kernel

theorem witness_RefusalsAndRetries_short : base.mailReady 0 = true ∧ base.power.flush = .idle ∧ ([1, 0, 0] : List Byte).length < 4 ∧
    after (.keyLoad (.head 0) [1, 0, 0]) base = base.refused (.head 0) [1, 0, 0] .invalidPayloadLength 0 := by decide +kernel

theorem witness_RefusalsAndRetries_manage : (without 1 base).mailReady 0 = true ∧ ((without 1 base).roles 0).getLsbD 1 = false ∧ 80 ≤ (pay []).length ∧
    after (.profileSelect (.head 0) (pay [])) (without 1 base) = (without 1 base).refused (.head 0) (pay []) .vendorSpecific 0x0101 := by decide +kernel

theorem witness_RefusalsAndRetries_keys : ((without 2 base).roles 0).getLsbD 2 = false ∧
    after (.regionRekey (.head 0) (pay [])) (without 2 base) = (without 2 base).refused (.head 0) (pay []) .vendorSpecific 0x0101 := by decide +kernel

/-- A duplicate table entry for tag 7, with the digest of the pace setting and this payload. -/
def dupAt (pl : List Byte) (rsp : Option (Rc × List Byte)) : State := base.updHead 0 (fun h => { h with dup := [⟨7, digestOf 0xC041 pl, rsp, 0⟩] })

theorem witness_RefusalsAndRetries_other : field (tagged 7 [1]) 0 2 ≠ 0 ∧ (base.roles 0).getLsbD 1 = true ∧
    ((dupAt [] none).head 0).dup.find? (fun e => e.tag = BitVec.ofNat 16 (field (tagged 7 [1]) 0 2)) = some ⟨7, digestOf 0xC041 [], none, 0⟩ := ⟨by decide +kernel, by decide +kernel, by rfl⟩

theorem witness_RefusalsAndRetries_busy : (dupAt (tagged 7 [1]) none).mailReady 0 = true ∧
    ((dupAt (tagged 7 [1]) none).head 0).dup.find? (fun e => e.tag = 7) = some ⟨7, digestOf 0xC041 (tagged 7 [1]), none, 0⟩ ∧
    (⟨7, digestOf 0xC041 (tagged 7 [1]), none, 0⟩ : DupEntry).digest = digestOf 0xC041 (tagged 7 [1]) := ⟨by decide +kernel, by rfl, rfl⟩

/-! ## Requests, logs, queries -/

/-- Region 5 as it is created, in a state whose front store is empty. -/
def reg : State := mapped desc1

theorem witness_PortsWithoutData : ∀ s ∈ [(without 0 reg).updSlice 0 (fun x => { x with counters := x.counters.set 15 ⟨0x105, 0, 7, false⟩ })],
    s.hasData 0 = false ∧ s.accepts 0 true = true ∧ s.accepts 0 false = true ∧ ((s.slice 0).counters[(15 : Fin 16)]).event = 0x105 ∧
    (∀ i ∈ [Instr.cxlMemRead 0 0x100000040 ⟨[1], 0⟩ .none, .cxlMemWrite 0 0x100000040 1 5 true ⟨[], .none⟩],
      (((after i s).slice 0).counters[(15 : Fin 16)]).value = 8 ∧ ((after i s).head 0).logs = (s.head 0).logs ∧ ((after i s).slice 0).front = (s.slice 0).front) := by decide +kernel

theorem witness_RequestsRefusedAtIngress_undecoded : reg.hasData 0 = true ∧ reg.accepts 0 false = true ∧ (reg.head 0).decode 0x0FFFFFFC0 = none ∧
    said? (.cxlMemRead 0 0x0FFFFFFC0 ⟨[], 0⟩ .none) reg = some (.cxl 0 0 false 0 true 0 false 27000) := by decide +kernel

theorem witness_RequestsRefusedAtIngress_unmapped : ∀ s ∈ [{ reg with index := [] }], s.hasData 0 = true ∧ s.accepts 0 true = true ∧
    (s.head 0).decode 0x100000000 = some 0 ∧ SMap.get? s.index (0 / 2 ^ 28) = none ∧
    said? (.cxlMemWrite 0 0x100000000 1 5 false ⟨[], .none⟩) s = some (.cxl 0 0 true 0 false 0 false 29000) := by decide +kernel

theorem witness_RequestsRefusedAtIngress_check : ∀ s ∈ [mapped { desc1 with rmask := 0xFE }], s.accepts 0 false = true ∧ (s.head 0).decode 0x11FFFFFC0 = some 0x1FFFFFC0 ∧
    SMap.get? s.index (0x1FFFFFC0 / 2 ^ 28) = some ⟨5, 1⟩ ∧ (s.slice 0).fill = none ∧ (s.slice 0).waiting = [] ∧ (s.slice 0).cacheOn = true ∧
    ((s.slice 0).cacheFind 5) = some (0, ⟨5, false, some { desc1 with rmask := 0xFE }⟩) ∧ s.ingressCheck { desc1 with rmask := 0xFE } 0 false ≠ 0 ∧
    said? (.cxlMemRead 0 0x11FFFFFC0 ⟨[], 0⟩ .none) s = some (.cxl 0 0 false 0 true 0 false 27000) := by decide +kernel

theorem witness_RequestsRefusedAtIngress_discarding : ∀ s ∈ [mapped { desc1 with st := .discarding }], s.accepts 0 false = true ∧
    s.ingressCheck { desc1 with st := .discarding } 0 false = 4 ∧
    said? (.cxlMemRead 0 0x100000000 ⟨[], 0⟩ .none) s = some (.cxl 0 0 false 0 false 0 false 27000) := by decide +kernel

/-- A record. -/
def rec (n : Nat) : EvRec := ⟨n, .vendor, 0x101, 0, 0, 0, false, 0, 0, 0, n, 0, 0⟩

/-- Head 3 with a full Failure log. -/
def fullLog : State := base.updHead 3 (fun h => { h with logs := h.logs.set 2 { recs := (List.range 256).map rec, overflow := false, lost := 0, firstLost := 0, lastLost := 0 } })

theorem witness_FullLogsKeepTheirOldest : 256 ≤ ((fullLog.head 3).logs[logIx .failure]).recs.length ∧
    (((fullLog.enterLog 3 .failure (rec 900)).head 3).logs[logIx .failure]).lost = 1 ∧ (((fullLog.enterLog 3 .failure (rec 900)).head 3).logs[logIx .failure]).firstLost = 900 ∧
    fullLog.mailReady 3 = true ∧ (exec (.clearEventRecords (.head 3) .failure false [0]) fullLog matches .next _) = true ∧
    ((after (.clearEventRecords (.head 3) .failure true []) fullLog).head 3).logs[logIx .failure] = ⟨[], false, 0, 0, 0⟩ ∧
    ((after (.clearEventRecords (.head 3) .failure false [0]) fullLog).head 3).logs[logIx .failure].recs.length = 255 := by decide +kernel

/-- Head 0 runs a scan in the background. -/
def scanning : State := base.updHead 0 (fun h => { h with bg := some ⟨.scan 0 8 3, 0x4304, 0, 0, false, 37⟩ })

theorem witness_StandardQueriesAnswer_fixed : base.mailReady 0 = true ∧ (base.head 0).bg = none ∧ (base.head 0).bgLast = none ∧
    said? (.identify (.head 0)) base = some (.reply (.head 0) .success .memoryDevice) ∧
    said? (.identifyMemoryDevice (.head 0)) base = some (.reply (.head 0) .success (.capacity base.granules base.granules 0 0 2097152 256 4096 64 true)) ∧
    said? (.getTimestamp (.head 0)) base = some (.reply (.head 0) .success (.timestamp (2 ^ 40 * 1000))) ∧
    said? (.getFwInfo (.head 0)) base ≠ none := by decide +kernel

theorem witness_StandardQueriesAnswer_limit : base.door .i3c false = .run ∧
    after (.getResponseMessageLimit .i3c) base = { base with out := .reply .i3c .success (.limit 1024) :: base.out } := by decide +kernel

theorem witness_StandardQueriesAnswer_running : scanning.mailReady 0 = true ∧ (scanning.head 0).bg = some ⟨.scan 0 8 3, 0x4304, 0, 0, false, 37⟩ ∧
    said? (.backgroundOperationStatus (.head 0)) scanning = some (.reply (.head 0) .success (.background true 0x4304 37 .success 0)) := by decide +kernel

theorem witness_StandardQueriesAnswer_ranges : 4 * effectsLog.length + 0 ≤ 4 * effectsLog.length ∧ 2097152 - 16 + 16 ≤ 2097152 ∧ (reg.slice 0).clkAlive = true ∧
    reg.mailReady 0 = true ∧ (∀ i, i < 256 / 64 → reg.inAperture 0 false ((0x1FFFFF00 / 64 + i) * 64) = true) ∧ reg.capacity - 64 + 64 ≤ reg.capacity ∧
    said? (.getLsa (.head 0) 2097148 4) (reg.updHead 0 (fun h => { h with lsa := [(2097151, 9)] })) = some (.reply (.head 0) .success (.bytes [0, 0, 0, 9])) ∧
    said? (.getPoisonList (.head 0) 0x1FFFFF00 256) (reg.updFront 0 (fun f => { f with poison := [0x7FFFFF] })) =
      some (.reply (.head 0) .success (.poison [(0x1FFFFFC0, .internal)] false 0)) := by decide +kernel

theorem witness_StandardWritesSet_policy : policyOk ⟨1, 1⟩ 0 = true ∧ policyOk ⟨1, 2⟩ 1 = true ∧ policyOk ⟨1, 3⟩ 2 = true ∧ policyOk ⟨1, 4⟩ 3 = true ∧
    ((after (.setEventInterruptPolicy (.head 0) ⟨1, 1⟩ ⟨1, 2⟩ ⟨1, 3⟩ ⟨1, 4⟩) base).head 0).policy = #v[⟨1, 1⟩, ⟨1, 2⟩, ⟨1, 3⟩, ⟨1, 4⟩] := by decide +kernel

theorem witness_StandardWritesSet_abort : scanning.mailReady 0 = true ∧ scanning.hasManage 0 = true ∧
    ((after (.requestAbortBackgroundOperation (.head 0)) scanning).head 0).bg = some ⟨.scan 0 8 3, 0x4304, 0, 0, true, 37⟩ := by decide +kernel

theorem witness_StandardWritesSet_manage : base.mailReady 7 = true ∧ base.hasManage 7 = true ∧ 2097151 + [1].length ≤ 2097152 ∧ (base.slice 7).clkAlive = true ∧
    ((after (.setLsa (.head 7) 2097151 [1]) base).head 7).lsa = [(2097151, 1)] ∧ (after (.setShutdownState (.head 7) 1) base).shut.value = 1 ∧
    (after (.setAlertConfiguration (.head 7) ⟨1, 2, 3, 4, 5⟩) base).firm.alert = ⟨1, 2, 3, 4, 5⟩ := by decide +kernel

/-- The epoch is not fixed yet. -/
def unfixed (now : BitVec 64) : State := { base with beat := { base.beat with epoch := .unfixed, now := now } }

theorem witness_StandardWritesSet_timestamp : (unfixed 4).mailReady 0 = true ∧ (unfixed 4).beat.source ≠ 0 ∧ (unfixed 4).beat.now.toNat ≤ (4999 : BitVec 64).toNat / 1000 ∧
    (after (.setTimestamp (.head 0) 4999) (unfixed 4)).beat.epoch = .host ∧ (after (.setTimestamp (.head 0) 4999) (unfixed 4)).beat.now = 4 := by decide +kernel

/-! ## Vendor queries and settings -/

/-- The vendor output of the newest response, from its byte 8. -/
def outOf (i : Instr) (s : State) : List Byte :=
  match said? i s with
  | some (.mailbox _ .success bs) => bs.drop 8
  | _ => []

/-- Boot step 13 ended at beat 99, in the third start. -/
def booted : State := { reg with led := { led1 with boot := ⟨some (1, ⟨3, (Vector.replicate 14 ⟨2, 1, false, 5⟩).set 13 ⟨2, 1, false, 99⟩⟩), none⟩ } }

theorem witness_VendorQueriesAnswer_plain : booted.vendorReady 0 none 4 (pay []) = true ∧ field (outOf (.beatStatus (.head 0) (pay [])) booted) 0 8 = 2 ^ 40 ∧
    field (outOf (.bootRecordGet (.head 0) (pay [])) booted) 0 4 = 3 ∧ field (outOf (.bootRecordGet (.head 0) (pay [])) booted) (12 + 12 * 13) 8 = 99 ∧
    field (outOf (.holdupStatus (.head 0) (pay [])) booted) 0 8 = booted.regHoldup.toNat ∧
    field (outOf (.healthExt (.head 0) (pay [])) booted) 4 2 = 0 := by decide +kernel

theorem witness_VendorQueriesAnswer_identity : base.vendorReady 0 none 4 (pay []) = true ∧ (outOf (.identifyExt (.head 0) (pay [])) base).take 4 = [0x50, 0x7A, 8, 0xB0] := by decide +kernel

theorem witness_VendorQueriesAnswer_slice : reg.vendorReady 7 none 8 (pay [7, 15, 0, 0]) = true ∧ field (pay [7, 15, 0, 0]) 4 1 = (7 : SliceId).val ∧ reg.present 7 = true ∧
    (reg.slice 7).clkAlive = true ∧ reg.chanAbsent 7 15 = false ∧ field (pay [7, 15, 0, 0]) 6 1 % 2 = 0 ∧
    outOf (.arbStats (.head 7) (pay [7, 15, 0, 0])) reg = reg.arbOut 7 15 := by decide +kernel

theorem witness_VendorQueriesAnswer_pacer : field (pay [7, 0, 2]) 4 1 = (7 : SliceId).val ∧ field (pay [7, 0, 2]) 5 1 % 2 = 0 ∧ field (pay [7, 0, 2]) 6 1 ≤ 2 ∧
    reg.vendorReady 7 none 8 (pay [7, 0, 2]) = true ∧ outOf (.pacerGet (.head 7) (pay [7, 0, 2])) reg = reg.pacerOut 7 2 ∧
    field (pay []) 4 1 % 2 = 0 ∧ reg.vendorReady 7 none 8 (pay []) = true ∧ field (outOf (.railLogGet (.head 7) (pay [])) reg) 0 1 = reg.railLog.first.toNat := by decide +kernel

theorem witness_VendorQueriesAnswer_region : reg.vendorReady 0 none 12 (pay [0xFF, 0x3F]) = true ∧ field (pay [0xFF, 0x3F]) 4 2 ≤ 16383 ∧
    outOf (.regionQuery (.head 0) (pay [0xFF, 0x3F])) reg = descBytes 16383 none ∧
    field (pay [0xFF, 0xFF, 0, 0, 1]) 4 2 = 0xFFFF ∧ field (pay [0xFF, 0xFF, 0, 0, 1]) 8 4 < reg.granules ∧ SMap.get? reg.index 1 = some ⟨5, 1⟩ ∧
    outOf (.regionQuery (.head 0) (pay [0xFF, 0xFF, 0, 0, 1])) reg = descBytes 5 (some desc1) := by decide +kernel

theorem witness_VendorQueriesAnswer_retired : field (pay [7, 2]) 4 1 = (7 : SliceId).val ∧ reg.present 7 = true ∧ (reg.slice 7).clkAlive = true ∧ field (pay [7, 2]) 5 1 ≤ 2 ∧
    reg.vendorReady 0 none 12 (pay [7, 2]) = true ∧ field (outOf (.retireList (.head 0) (pay [7, 2])) reg) 0 4 = 0 := by decide +kernel

/-- A stored image under profile 2. -/
def profiled : State := { base with led := { led1 with prof := led1.prof.set 2 ⟨some (1, image), none⟩ } }

/-- PROFILE_GET of the last byte of profile 2. -/
def getLast : List Byte := pay [2, 0, 0, 0, 0xFF, 0x3F, 0, 0, 1, 0]

theorem witness_VendorQueriesAnswer_profile : profiled.vendorReady 0 none 14 getLast = true ∧ profiled.profNamed (field getLast 4 1) = some 2 ∧ field getLast 8 4 < 16384 ∧
    field getLast 12 2 ≠ 0 ∧ field getLast 12 2 ≤ 1000 ∧ (outOf (.profileGet (.head 0) getLast) profiled).drop 16 = [0] ∧
    field (outOf (.profileGet (.head 0) getLast) profiled) 0 1 = 2 := by decide +kernel

theorem witness_VendorQueriesAnswer_keys : reg.vendorReady 0 (some 2) 8 (pay [0xFF, 0x07, 63, 0]) = true ∧ field (pay [0xFF, 0x07, 63, 0]) 4 2 = 2047 ∧
    field (outOf (.keyQuery (.head 0) (pay [0xFF, 0x07, 63, 0])) reg) 0 2 = 1 ∧ field (outOf (.keyQuery (.head 0) (pay [0xFF, 0x07, 63, 0])) reg) 8 2 = 2047 := by decide +kernel

theorem witness_VendorQueriesAnswer_ledger : reg.vendorReady 0 (some 1) 10 (pay [8, 0, 0xFF, 3, 2, 0]) = true ∧ field (pay [8, 0, 0xFF, 3, 2, 0]) 4 2 ≤ 255 ∧
    field (pay [8, 0, 0xFF, 3, 2, 0]) 6 2 ≤ 1023 ∧ field (pay [8, 0, 0xFF, 3, 2, 0]) 8 2 = 2 ∧
    (outOf (.ledgerRead (.head 0) (pay [8, 0, 0xFF, 3, 2, 0])) { reg with led := { led1 with rail8 := [(0, 3), (1023, 5)] } }).drop 8 = [5, 3] := by decide +kernel

/-- PACER_SET of every slice with the default parameters. -/
def pace : List Byte := pay [0xFF, 0, 40, 0, 20, 0, 60, 0, 16, 26]

/-- ARB_WEIGHTS_SET of slice 7, channels 0 and 15, with the default weights. -/
def weights : List Byte := pay ([0x80, 0, 0x01, 0x80] ++ (leBytes 2 320 ++ leBytes 2 24 ++ leBytes 2 24 ++ leBytes 2 12 ++ leBytes 2 8 ++ leBytes 2 12) ++ leBytes 2 64)

theorem witness_EngineSettingsWaitAndArrive_weights : base.vendorReady 0 (some 1) 24 weights = true ∧ field weights 4 1 ≠ 0 ∧ field weights 4 1 < 2 ^ base.nSlices ∧ maskChans (field weights 6 2) = [0, 15] ∧ arbOk (weightsAt weights 8) (field weights 20 2) = true ∧
    (∀ k ∈ maskSlices (field weights 4 1), (base.slice k).clkAlive = true ∧ ∀ j ∈ maskChans (field weights 6 2), base.chanAbsent k.val j.val = false) ∧
    outOf (.arbWeightsSet (.head 0) weights) base = [2, 0, 0, 0] ∧ ((after (.arbWeightsSet (.head 0) weights) base).chan 7 15).arb.nextWeights = some (defaultWeights, 64) ∧
    ((after (.arbWeightsSet (.head 0) weights) base).chan 7 14).arb.nextWeights = none ∧
    ((after (.arbParamArrive 7 15) (after (.arbWeightsSet (.head 0) weights) base)).chan 7 15).arb.armed = some defaultWeights := by decide +kernel

theorem witness_EngineSettingsWaitAndArrive_users : base.vendorReady 0 (some 1) 8 (pay [0xAA]) = true ∧ field (pay [0xAA]) 4 1 < 2 ^ base.nSlices ∧
    (∀ q : Port, ((after (.countersUserAccess (.head 0) (pay [0xAA])) base).head q).userRead = decide (q.val % 2 = 1)) := by decide +kernel

/-- COUNTERS_CONFIG of counter 15 of slice 7 to event 0x105. -/
def ctrs : List Byte := pay ([7, 0, 0, 0x80, 2, 0, 0, 0] ++ List.replicate 4 0 ++ List.replicate 60 0 ++ [0x05, 0x01, 15, 0])

theorem witness_EngineSettingsWaitAndArrive_counters : base.vendorReady 0 (some 1) 80 ctrs = true ∧ field ctrs 4 1 = (7 : SliceId).val ∧ field ctrs 8 1 = 2 ∧
    (∀ n, n < 16 → (BitVec.ofNat 16 (field ctrs 6 2)).getLsbD n = true → eventKnown (field ctrs (16 + 4 * n) 2 % 4096) = true ∧
      ¬ (n = 0 ∧ field ctrs (16 + 4 * n) 2 % 4096 = 1) ∧ field ctrs (18 + 4 * n) 1 ≤ 15) ∧
    ((after (.countersConfig (.head 0) ctrs) base).slice 7).ctrPending ≠ none ∧
    ((after (.countersConfigApply 7) (after (.countersConfig (.head 0) ctrs) base)).slice 7).counters[(15 : Fin 16)] = ⟨0x105, 15, 0, false⟩ := by decide +kernel

theorem witness_EngineSettingsWaitAndArrive_pace : ∀ pl ∈ [pay ([0x81, 0, 50, 75, 32, 26] ++ leBytes 2 16 ++ leBytes 4 4096)], base.vendorReady 0 (some 1) 16 pl = true ∧ field pl 4 1 < 2 ^ base.nSlices ∧
    (∀ k ∈ maskSlices (field pl 4 1), (base.slice k).clkAlive = true) ∧ paceOk (pacerAt pl 6) = true ∧
    ((after (.pacerSet (.head 0) pl) base).slice 7).pacer.next = some ⟨50, 75, 32, 26, 16, 4096⟩ ∧ ((after (.pacerSet (.head 0) pl) base).slice 6).pacer.next = none := by decide +kernel

/-! ## Service commands -/

theorem witness_ServiceCommandsSet_ledger : ∀ pl ∈ [pay [8, 0, 0xFF, 3, 2, 0, 0, 0, 7, 9]], field pl 8 2 = 2 ∧ base.vendorReady 0 (some 1) (12 + 2) pl = true ∧ field pl 6 2 = 1023 ∧ field pl 4 2 = 8 ∧
    (after (.ledgerWrite (.head 0) pl) base).led.rail8 = [(0, 9), (1023, 7)] := by decide +kernel

theorem witness_ServiceCommandsSet_ledger9 : ∀ pl ∈ [pay [9, 0, 0, 0, 1, 0, 0, 0, 7]], field pl 8 2 = 1 ∧ base.vendorReady 0 (some 1) (12 + 1) pl = true ∧ field pl 4 2 = 9 ∧
    (after (.ledgerWrite (.head 0) pl) base).led.rail9 = [(0, 7)] ∧ (after (.ledgerWrite (.head 0) pl) base).led.rail8 = [] := by decide +kernel

theorem witness_ServiceCommandsSet_reserved : ∀ pl ∈ [pay [9, 0, 90, 0, 2, 0, 0, 0, 7, 8]], field pl 8 2 = 2 ∧ base.vendorReady 0 (some 1) (12 + 2) pl = true ∧ field pl 6 2 = 90 ∧
    railReserved 90 = true ∧ (after (.ledgerWrite (.head 0) pl) base).led.rail9 = (if railReserved 91 then [] else [(91, 8)]) := by decide +kernel

theorem witness_ServiceCommandsSet_quiesce : base.vendorReady 0 (some 1) 8 (pay [7, 0]) = true ∧ field (pay [7, 0]) 4 1 = (7 : SliceId).val ∧ base.present 7 = true ∧ (base.slice 7).clkAlive = true ∧
    base.sliceClash (7 : SliceId).val = none ∧ (base.slice 7).quiesce = 0 ∧ ((after (.sliceQuiesce (.head 0) (pay [7, 0])) base).slice 7).quiesce = 1 ∧
    ((after (.sliceQuiesce (.head 0) (pay [7, 1])) (base.updSlice 7 (fun x => { x with quiesce := 2 }))).slice 7).quiesce = 0 := by decide +kernel

theorem witness_ServiceCommandsSet_reset : base.vendorReady 0 (some 1) 8 (pay [1]) = true ∧ field (pay [1]) 4 1 ≤ 1 ∧
    (after (.packageReset (.head 0) (pay [1])) base).rst.pkgReset = some false ∧ (after (.packageReset (.head 0) (pay [0])) base).rst.pkgReset = some true := by decide +kernel

theorem witness_ServiceCommandsSet_telemetry : base.vendorReady 0 none 8 (pay [255, 0, 1]) = true ∧ field (pay [255, 0, 1]) 4 2 < 256 ∧
    ((after (.telemetryConfig (.head 0) (pay [255, 0, 1])) base).head 0).tq.sections = 255 ∧ ((after (.telemetryConfig (.head 0) (pay [255, 0, 1])) base).head 0).tq.enable = true ∧
    field (outOf (.telemetryConfig (.head 0) (pay [255, 0, 1])) base) 0 2 = 255 := by decide +kernel

theorem witness_ServiceCommandsSet_debug : base.vendorReady 0 (some 4) 8 (pay [1]) = true ∧ field (pay [1]) 4 1 = 1 ∧ field (pay [0]) 4 1 = 0 ∧
    (after (.debugUnlock (.head 0) (pay [1]) true) base).rst.debugOpen = true ∧ (after (.debugUnlock (.head 0) (pay [0]) false) base).rst.debugOpen = false := by decide +kernel

/-- Statistics to clear on channel 15 of slice 7. -/
def counted : State := base.updChan 7 15 (fun c => { c with pace := { c.pace with lapSpent := Vector.replicate 6 5, mandSum := 4 }, arb := { c.arb with pauses := 3 } })

theorem witness_ClearingQueriesClear_pace : counted.vendorReady 0 (some 1) 8 (pay [7, 1, 0]) = true ∧ field (pay [7, 1, 0]) 4 1 = (7 : SliceId).val ∧ counted.present 7 = true ∧
    (counted.slice 7).clkAlive = true ∧ field (pay [7, 1, 0]) 5 1 % 2 = 1 ∧ field (pay [7, 1, 0]) 6 1 ≤ 2 ∧
    outOf (.pacerGet (.head 0) (pay [7, 1, 0])) counted = counted.pacerOut 7 0 ∧ ((after (.pacerGet (.head 0) (pay [7, 1, 0])) counted).chan 7 15).pace.mandSum = 0 ∧
    (∀ j, (after (.pacerGet (.head 0) (pay [7, 1, 0])) counted).chan 7 j = (counted.chan 7 j).clearPace) := by decide +kernel

theorem witness_ClearingQueriesClear_arb : counted.chanAbsent (7 : SliceId).val (15 : ChanId).val = false ∧ field (pay [7, 15, 1]) 5 1 = (15 : ChanId).val ∧ field (pay [7, 15, 1]) 6 1 % 2 = 1 ∧
    counted.vendorReady 0 (some 1) 8 (pay [7, 15, 1]) = true ∧ ((after (.arbStats (.head 0) (pay [7, 15, 1])) counted).chan 7 15).arb.pauses = 0 ∧
    outOf (.arbStats (.head 0) (pay [7, 15, 1])) counted = counted.arbOut 7 15 := by decide +kernel

/-- A rail log with a failure of rail 3 and its counts. -/
def railed : State := { base with led := { led1 with rlog := ⟨some (1, ⟨3, 3, 1, 77, false, 8, 4, 0, Vector.replicate 20 2, Vector.replicate 20 1⟩), none⟩ } }

theorem witness_ClearingQueriesClear_rails : railed.vendorReady 0 (some 1) 8 (pay [1]) = true ∧ field (pay [1]) 4 1 % 2 = 1 ∧
    (after (.railLogGet (.head 0) (pay [1])) railed).railLog = railed.railLog.cleared ∧ railed.railLog.first = 3 ∧
    field (outOf (.railLogGet (.head 0) (pay [1])) railed) 0 1 = 3 ∧ field (outOf (.railLogGet (.head 0) (pay [1])) railed) 12 4 = 8 ∧
    (after (.railLogGet (.head 0) (pay [1])) railed).railLog.first = 3 ∧ (after (.railLogGet (.head 0) (pay [1])) railed).railLog.failed = 0 := by decide +kernel

/-! ## Profiles -/

theorem witness_ProfilesSelectAndStore_once : ∀ pl ∈ [pay [2, 0, 0]], field pl 4 1 = (2 : Fin 4).val ∧ profiled.vendorReady 0 (some 1) 7 pl = true ∧ profiled.led.prof[(2 : Fin 4)].cur = some image ∧
    field pl 5 1 = 0 ∧ field pl 6 1 % 2 = 0 ∧ (after (.profileSelect (.head 0) pl) profiled).selRec.once = some 2 ∧
    outOf (.profileSelect (.head 0) pl) profiled = [0, 1, 2] ++ (outOf (.profileSelect (.head 0) pl) profiled).drop 3 := by decide +kernel

theorem witness_ProfilesSelectAndStore_kept : ∀ pl ∈ [pay [2, 1, 0]], field pl 5 1 = 1 ∧ profiled.storeRefused = false ∧
    (after (.profileSelect (.head 0) pl) profiled).selRec.sticky = some 2 ∧ (after (.profileSelect (.head 0) pl) profiled).shadow.stores = 1 ∧
    (after (.profileSelect (.head 0) pl) profiled).shadow.led = (after (.profileSelect (.head 0) pl) profiled).led := by decide +kernel

theorem witness_ProfilesSelectAndStore_apply : ∀ pl ∈ [pay [2, 0, 1]], field pl 6 1 % 2 = 1 ∧ profiled.profileManages image = true ∧
    (after (.profileSelect (.head 0) pl) profiled).profNo = 2 ∧ (after (.profileSelect (.head 0) pl) profiled).prof = image ∧
    (after (.profileSelect (.head 0) pl) profiled).selRec.once = some 2 := by decide +kernel

theorem witness_ProfilesSelectAndStore_stage : ∀ pl ∈ [pay [2, 0, 0, 0, 0, 0, 0, 0, 3, 0, 0, 0, 7, 8, 9]], field pl 12 2 = 3 ∧ base.vendorReady 0 (some 1) (16 + 3) pl = true ∧
    field pl 5 1 % 2 = 0 ∧ field pl 8 4 = 0 ∧ (after (.profileWrite (.head 0) pl) base).firm.staged = [7, 8, 9] ∧
    outOf (.profileWrite (.head 0) pl) base = leBytes 4 3 := by decide +kernel

theorem witness_ProfilesSelectAndStore_next : ∀ pl ∈ [pay [2, 0, 0, 0, 2, 0, 0, 0, 1, 0, 0, 0, 9]], ∀ s ∈ [{ base with firm := { base.firm with staged := [7, 8] } }],
    field pl 12 2 = 1 ∧ s.vendorReady 0 (some 1) (16 + 1) pl = true ∧ field pl 5 1 % 2 = 0 ∧ field pl 8 4 ≠ 0 ∧ field pl 8 4 = s.firm.staged.length ∧
    field pl 8 4 + 1 ≤ 16384 ∧ (after (.profileWrite (.head 0) pl) s).firm.staged = [7, 8, 9] ∧ outOf (.profileWrite (.head 0) pl) s = leBytes 4 3 := by decide +kernel

/-- All but the last byte of the factory profile is staged. -/
def staged : State := { base with firm := { base.firm with staged := base.factoryProfile ++ List.replicate 16127 0 } }

/-- PROFILE_WRITE of the last byte of profile 2, with FINAL. -/
def lastByte : List Byte := pay ([2, 1, 0, 0] ++ leBytes 4 16383 ++ [1, 0, 0, 0, 0])

theorem staged_length : staged.firm.staged.length = 16383 := by
  have h : base.factoryProfile.length = 256 := by decide +kernel
  show (base.factoryProfile ++ List.replicate 16127 (0 : Byte)).length = _
  rw [List.length_append, h, List.length_replicate]

theorem witness_ProfilesSelectAndStore_final : field lastByte 4 1 = (2 : Fin 4).val ∧ field lastByte 12 2 = 1 ∧ staged.vendorReady 0 (some 1) (16 + 1) lastByte = true ∧ field lastByte 5 1 % 2 = 1 ∧
    field lastByte 8 4 ≠ 0 ∧ field lastByte 8 4 = staged.firm.staged.length ∧ (staged.firm.staged ++ profileBytes (field lastByte 8 4) (bytesAt lastByte 16 1)).length = 16384 ∧
    staged.profileOk (profileHeader 2 1 (staged.firm.staged ++ profileBytes (field lastByte 8 4) (bytesAt lastByte 16 1))) = true ∧
    staged.profileManages (profileHeader 2 1 (staged.firm.staged ++ profileBytes (field lastByte 8 4) (bytesAt lastByte 16 1))) = true ∧ staged.storeRefused = false ∧
    (staged.led.prof[(2 : Fin 4)]).curSeq = none := by
  have h8 : field lastByte 8 4 = 16383 := by decide +kernel
  have hb : (profileBytes 16383 (bytesAt lastByte 16 1)).length = 1 := by decide +kernel
  refine ⟨by decide +kernel, by decide +kernel, by decide +kernel, by decide +kernel, by decide +kernel, by rw [h8, staged_length], ?_, by decide +kernel, by decide +kernel, by decide +kernel, by decide +kernel⟩
  rw [h8, List.length_append, staged_length, hb]

/-! ## Regions -/

/-- REGION_CREATE of a Clear, Spread region of one granule. -/
def create1 : List Byte := pay ([9, 0, 0x00, 0, 0, 0, 0xFF, 0x0F, 0, 0, 0, 0] ++ leBytes 4 3 ++ leBytes 4 1 ++ leBytes 8 7)

theorem witness_RegionsCreatedAndModified_create : reg.vendorReady 0 (some 1) 32 create1 = true ∧ (∀ x ∈ reg.discards, ¬ (x.region = field create1 4 2 ∧ x.destroy = true)) ∧
    reg.createTest create1 = 0 ∧ (reg.create create1).map (fun x => (x.1, x.2.1)) = some (9, 3) ∧
    (SMap.get? (after (.regionCreate (.head 0) create1) reg).index 3).map (·.region) = some 9 ∧ SMap.get? (after (.regionCreate (.head 0) create1) reg).desc 5 = some desc1 := by decide +kernel

/-- REGION_MODIFY of every field of region 5, under its GENERATION. -/
def modify1 : List Byte := pay ([5, 0, 0x7F, 0x84, 1, 0x0F, 0xF0, 9] ++ leBytes 4 1 ++ leBytes 8 77)

theorem witness_RegionsCreatedAndModified_modify : reg.vendorReady 0 (some 1) 24 modify1 = true ∧ field modify1 4 2 = 5 ∧ SMap.get? reg.desc 5 = some desc1 ∧ reg.regionClash 5 = none ∧
    BitVec.ofNat 8 (field modify1 9 1) &&& ~~~reg.portMask = 0 ∧ BitVec.ofNat 8 (field modify1 10 1) &&& ~~~reg.portMask = 0 ∧ field modify1 12 4 = desc1.gen.toNat ∧ reg.pinned < 24 ∧
    SMap.get? (after (.regionModify (.head 0) modify1) reg).desc 5 =
      some { desc1 with patient := true, readFill := true, pin := true, rmask := 0x0F, wmask := 0xF0, wear := 9, tag := 77, gen := 2 } := by decide +kernel

/-- Two regions. -/
def two : State := { reg with desc := [(5, desc1), (6, { desc1 with rmask := 0xFE, base := 2, count := 1 })] }

theorem witness_ApertureSetAll : ∀ pl ∈ [pay ([0, 0, 1, 0] ++ [6, 0, 3, 0])], two.vendorReady 7 (some 1) (8 + 4 * field pl 6 2) pl = true ∧ field pl 4 1 = (0 : Port).val ∧ two.present 0 = true ∧
    SMap.sorted two.desc = true ∧ ((apertureEntries pl).map (·.1)).Nodup ∧ (∀ e ∈ apertureEntries pl, e.1 ≤ 16383 ∧ (SMap.get? two.desc e.1).isSome = true) ∧
    (after (.apertureSet (.head 7) pl) two).desc.map (fun e => (e.1, e.2.rmask, e.2.wmask, e.2.gen)) = [(5, 0xFE, 0xFE, 2), (6, 0xFF, 0xFF, 2)] := by decide +kernel

theorem witness_DiscardsRun_destroy : ∀ pl ∈ [pay [5, 0, 0, 0, 1]], SMap.get? reg.desc 5 = some desc1 ∧ field pl 4 2 = 5 ∧ (reg.head 0).bg = none ∧ reg.regionClash 5 = none ∧
    reg.vendorReady 0 (some 1) 12 pl = true ∧ field pl 8 4 = desc1.gen.toNat ∧
    (after (.regionDestroy (.head 0) pl) reg).discards = [⟨5, true, true, 0, 2 ^ 29, [], none⟩] ∧
    (SMap.get? (after (.regionDestroy (.head 0) pl) reg).desc 5).map (fun d => (d.st, d.back, d.gen)) = some (.discarding, .active, 2) := by decide +kernel

theorem witness_DiscardsRun_discard : ∀ pl ∈ [pay [5, 0, 1, 0]], reg.vendorReady 0 (some 1) 24 pl = true ∧ field pl 6 1 % 2 = 1 ∧ desc1.st = .active ∧
    (after (.regionDiscard (.head 0) pl) reg).discards = [⟨5, false, true, 0, 2 ^ 29, [], none⟩] := by decide +kernel

/-- The last two groups of region 5. -/
def tail2 : List Byte := pay ([5, 0, 0, 0] ++ leBytes 8 (2 ^ 29 - 8192) ++ leBytes 8 8192)

theorem witness_DiscardsRun_range : reg.vendorReady 0 (some 1) 24 tail2 = true ∧ field tail2 8 8 % 64 = 0 ∧ field tail2 16 8 % 64 = 0 ∧ field tail2 16 8 ≠ 0 ∧
    field tail2 8 8 + field tail2 16 8 ≤ desc1.count * 2 ^ 28 ∧
    after (.regionDiscard (.head 0) tail2) reg = ({ reg with discards := [⟨5, false, false, 2 ^ 29 - 8192, 2 ^ 29, [], none⟩] } : State).started 0 0xC013 (.discard 5) := by decide +kernel

/-- A destroy of region 5 that runs. -/
def destroying : State := after (.regionDestroy (.head 0) (pay [5])) reg

theorem witness_DiscardsRun_destroyed : destroying.rst.mgmtDown = false ∧ destroying.power.flush = .idle ∧
    destroying.discards.find? (fun x => x.region = 5 && x.destroy) = some ⟨5, true, true, 0, 2 ^ 29, [], none⟩ ∧
    (∀ k ∈ destroying.liveSlices, (destroying.slice k).st = .working ∧ destroying.zeroBlocked k 5 = []) ∧ destroying.bgOf (fun b => b == .destroy 5) = some 0 ∧
    (after (.regionDestroyComplete 5) destroying).desc = [] ∧ (after (.regionDestroyComplete 5) destroying).index = [] ∧
    ((after (.regionDestroyComplete 5) destroying).head 0).bgLast = some ⟨0xC012, .success, 0⟩ ∧ ((after (.regionDestroyComplete 5) destroying).head 0).bg = none := by decide +kernel

/-- The place of a home on the medium. -/
def placed (h : Home) : Option Place := match h with | .at pg => some pg | _ => none

/-- A discard of the first group and one line of the next that runs. -/
def disc2 : Discard := ⟨5, false, false, 0, 4160, [], none⟩

/-- Region 5 as it is discarded. -/
def discarding : State := { reg with discards := [disc2] }.updHead 0 (fun h => { h with bg := some ⟨.discard 5, 0xC013, 0, 0, false, 0⟩ })

/-- The home of group 0. -/
def home0 : Place := ((placed (discarding.groupHome desc1 0 0)).getD ⟨0, 0, 0, 0, 0, 0⟩)

theorem witness_DiscardsRun_page : discarding.rst.mgmtDown = false ∧ discarding.discards.find? (fun x => x.region = 5 && !x.destroy) = some disc2 ∧
    discarding.regionAt (0 * 4096) = some (5, desc1, 0) ∧ (disc2.groups desc1).contains 0 = true ∧ disc2.handled.contains 0 = false ∧
    (discarding.slice (fin8 (discarding.prism desc1 0 (0 * 4096)).slice)).st = .working ∧ placed (discarding.groupHome desc1 0 0) = some home0 ∧
    (∀ i, i < 64 → desc1.base * 2 ^ 28 + disc2.lo ≤ 0 * 4096 + i * 64 ∧ 0 * 4096 + i * 64 < desc1.base * 2 ^ 28 + disc2.hi) ∧
    ((discarding.slice 0).media.entry home0.key).st ≠ .dead ∧ discarding.wholeBlock disc2 desc1 0 home0.key = none ∧ (discarding.slice 0).media.ovRoom home0.pageKey = true ∧
    (SMap.get? ((after (.discardPage 5 0) discarding).slice 0).media.overlay home0.pageKey).map (fun o => (o.kind, o.sectors)) = some (OvKind.zero, 0) ∧
    (after (.discardPage 5 0) discarding).discards.map (·.handled) = [[0]] := by decide +kernel

/-- The channel of group 0 is absent and no overflow block takes its place. -/
def homeless : State := { discarding with led := { led1 with media := ⟨some (1, ⟨4, [⟨home0.chan, 0x8000, 1024⟩], Vector.replicate 8 0, []⟩), none⟩ } }

/-- The same discard over half of group 0 only. -/
def homelessPart : State := { homeless with discards := homeless.discards.map (fun x => { x with hi := 2048 }) }

theorem witness_DiscardsRun_nowhere_part : homelessPart.regionAt (0 * 4096) = some (5, desc1, 0) ∧ homelessPart.groupHome desc1 0 (0 * 4096) = .nowhere ∧
    ¬ (desc1.base * 2 ^ 28 + 0 ≤ 0 * 4096 + 63 * 64 ∧ 0 * 4096 + 63 * 64 < desc1.base * 2 ^ 28 + 2048) ∧
    (homelessPart.discards.find? (fun x => x.region = 5 && !x.destroy)).map (fun x => ((x.groups desc1).contains 0, x.handled.contains 0)) = some (true, false) ∧
    after (.discardPage 5 0) homelessPart = homelessPart.handled 5 [0] := by decide +kernel

theorem witness_DiscardsRun_nowhere : homeless.regionAt (0 * 4096) = some (5, desc1, 0) ∧ homeless.groupHome desc1 0 (0 * 4096) = .nowhere ∧
    (after (.discardPage 5 0) homeless).discards.map (·.handled) = [[0]] := by decide +kernel

theorem witness_DiscardsRun_complete : ∀ s ∈ [{ discarding with discards := [{ disc2 with handled := [1, 0] }] }],
    s.discards.find? (fun x => x.region = 5 && !x.destroy) = some { disc2 with handled := [1, 0] } ∧ (∀ g ∈ ({ disc2 with handled := [1, 0] } : Discard).groups desc1, [1, 0].contains g = true) ∧
    s.bgOf (fun b => b == .discard 5) = some 0 ∧ (after (.discardComplete 5) s).discards = [] ∧ (after (.discardComplete 5) s).desc = [(5, desc1)] ∧
    ((after (.discardComplete 5) s).head 0).bgLast = some ⟨0xC013, .success, 0⟩ := by decide +kernel

theorem witness_DiscardsRun_whole : ∀ s ∈ [{ mapped { desc1 with st := .discarding, back := .locked, gen := 4, count := 0 } with discards := [⟨5, false, true, 0, 0, [], none⟩] }],
    (∀ g ∈ (⟨5, false, true, 0, 0, [], none⟩ : Discard).groups desc1, ([] : List Nat).contains g = true) ∧
    (SMap.get? (after (.discardComplete 5) s).desc 5).map (fun d => (d.st, d.gen)) = some (.locked, 5) := by decide +kernel

/-! ## Fences -/

/-- A fence over one line of region 5. -/
def fence1 : List Byte := [0, 0, 0, 0] ++ [1, 0, 0, 0] ++ leBytes 8 (2 ^ 29 - 64) ++ leBytes 64 0x99

theorem witness_WriteGroupFences_accept : reg.vendorReady 0 (some 0) (8 + 72 * field fence1 4 2) fence1 = true ∧ field fence1 4 2 ≤ 64 ∧ reg.groupRec = none ∧
    (∀ a ∈ groupLines fence1, a.1 % 64 = 0) ∧ ((groupLines fence1).map (·.1)).Nodup ∧
    reg.inAperture 0 true (2 ^ 29 - 64) = true ∧ reg.regionAt (2 ^ 29 - 64) = some (5, desc1, 1) ∧ (∀ o, reg.ownerOf ((2 ^ 29 - 64) / 64) = some o → (reg.slice (fin8 o)).clkAlive = true) ∧
    after (.writeGroupFence (.head 0) fence1) reg = { reg with firm := { reg.firm with fences := [(⟨0, 0, 0, 0, [(2 ^ 29 - 64, 0x99)]⟩, 0)] } } := by
  refine ⟨by decide +kernel, by decide +kernel, by decide +kernel, by decide +kernel, by decide +kernel, by decide +kernel, by decide +kernel, ?_, by decide +kernel⟩
  intro o h; have : o = 0 := by revert h; simp only [show reg.ownerOf ((2 ^ 29 - 64) / 64) = some 0 by decide +kernel]; intro h; injection h with h; exact h.symm
  subst this; decide +kernel

/-- A fence that waits to commit. -/
def fenced (ls : List (Nat × Line)) : State := { reg with firm := { reg.firm with fences := [(⟨0, 0, 0, 0, ls⟩, 0)] } }

theorem witness_WriteGroupFences_commit : ∀ ls ∈ [[], [((2 ^ 29 - 64 : Nat), (0x99 : Line))]], (fenced ls).rst.mgmtDown = false ∧ (fenced ls).power.flush = .idle ∧ ((fenced ls).head 0).dbInt = false ∧
    (fenced ls).rst.rung = [] ∧ (fenced ls).groupRec = none ∧ ((fenced ls).commitGroup 0 ls).1 = [] ∧ (fenced ls).firm.fences = [(⟨0, 0, 0, 0, ls⟩, 0)] ∧ (fenced ls).writesBefore 0 0 = false ∧ (∀ l ∈ ls, (fenced ls).ownerWaits l.1 = false) ∧
    (after .writeGroupCommit (fenced ls)).firm.fences = [] ∧ (after .writeGroupCommit (fenced ls)).groupRec = none ∧ (ls ≠ [] → (after .writeGroupCommit (fenced ls)).firm.groupSeq = 1) ∧
    (ls = [] → outOf .writeGroupCommit (fenced ls) = leBytes 16 0) := by decide +kernel

/-! ## Keys -/

theorem witness_KeySlotsLive_load : ∀ pl ∈ [pay ([0xFF, 7, 0, 0] ++ List.replicate 64 0xA5)], field pl 4 2 = 2047 ∧ base.vendorReady 0 (some 2) 72 pl = true ∧ base.slotClash 2047 = none ∧
    field pl 6 1 = 0 ∧ base.slotSt 2047 = 0 ∧ base.storeRefused = false := by decide +kernel

/-- A loaded slot. -/
def slot1 : Slot := ⟨1, false, 5, 6, 7, 0⟩

/-- A Cipher region under key slot 2047, with slots 1 and 2047 loaded. -/
def keyed : State := { mapped { desc1 with mode := .cipher, keyId := 2047 } with keys := [(1, slot1), (2047, slot1)] }

theorem witness_KeySlotsLive_retire : ∀ pl ∈ [pay [0xFF, 7, 1, 0]], keyed.vendorReady 0 (some 2) 8 pl = true ∧ keyed.slotClash 2047 = none ∧ keyed.ops.retires.length < 8 ∧ (keyed.head 0).bg = none ∧
    keyed.slotSt 2047 = 1 ∧ (∀ e ∈ keyed.desc, e.2.st = .rekeying → e.2.names 2047 = false) ∧ field pl 6 1 % 2 = 1 ∧
    (after (.keyRetire (.head 0) pl) keyed).ops.retires = [⟨2047, true, 1⟩] ∧
    ((after (.keyRetire (.head 0) pl) keyed).head 0).bg = some ⟨.retire 2047 0, 0xC021, 0, 0, false, 0⟩ := by decide +kernel

/-- Slot 2047 is being retired. -/
def retiring : State := after (.keyRetire (.head 0) (pay [0xFF, 7, 1, 0])) keyed

theorem witness_KeySlotsLive_drained : (∃ x ∈ retiring.ops.retires, x.slot = 2047) ∧ retiring.rst.mgmtDown = false ∧ retiring.power.flush = .idle ∧ ¬ 12 ∈ retiring.rst.todo ∧ SMap.sorted retiring.desc = true ∧
    (∀ k ∈ retiring.liveSlices, (retiring.slice k).st = .working ∧ retiring.undrained k (retiring.regionsOf 2047) = false) ∧
    (after (.keyRetireDrained 2047) retiring).slotSt 2047 = 3 ∧ (after (.keyRetireDrained 2047) retiring).slotSt 1 = 1 ∧ (after (.keyRetireDrained 2047) retiring).ops.retires = [] ∧
    ((after (.keyRetireDrained 2047) retiring).desc.map (fun e => (e.2.st, e.2.cause, e.2.gen))) = [(.unavailable, 3, 2)] := by decide +kernel

theorem witness_KeySlotsLive_empty : ∀ s ∈ [{ base with keys := [(2047, ⟨3, false, 0, 0, 0, 2 ^ 26 - 2 ^ 20⟩)] }], SMap.get? s.keys 2047 = some ⟨3, false, 0, 0, 0, 2 ^ 26 - 2 ^ 20⟩ ∧
    2 ^ 26 - 2 ^ 20 + 2 ^ 20 ≤ s.beat.events ∧ ¬ 12 ∈ s.rst.todo ∧ (after (.keyQuarantineEnd 2047) s).keys = [] ∧ (after (.keyQuarantineEnd 2047) { s with beat := { s.beat with events := 2 ^ 26 - 1 } }).keys ≠ [] := by decide +kernel

theorem witness_RegionRekeys_start : ∀ pl ∈ [pay ([5, 0, 1, 0] ++ List.replicate 24 0)], field pl 4 2 = 5 ∧ field pl 6 2 = 1 ∧ keyed.vendorReady 0 (some 2) 32 pl = true ∧ keyed.regionClash 5 = none ∧
    (keyed.head 0).bg = none ∧ keyed.slotSt 1 = 1 ∧ field pl 8 1 % 2 = 0 ∧ keyed.ops.rekeys.length < 48 ∧
    (SMap.get? (after (.regionRekey (.head 0) pl) keyed).desc 5).map (fun d => (d.st, d.keyId, d.newKey, d.rekeyPtr, d.gen)) = some (.rekeying, 2047, 1, 0, 2) ∧
    (after (.regionRekey (.head 0) pl) keyed).ops.rekeys = [⟨5, 2047, 1, 0⟩] := by decide +kernel

/-- Region 5 at the end of a chunk of its rekey. -/
def rekeying (ptr : Nat) : State := { keyed with
  desc := [(5, { desc1 with mode := .cipher, keyId := 2047, newKey := 1, st := .rekeying, rekeyPtr := ptr })]
  chunks := [(5, [])]
  led := { led1 with ops := ⟨some (1, ⟨[⟨5, 2047, 1, ptr⟩], []⟩), none⟩ } }

theorem witness_RegionRekeys_chunk : ∀ ptr ∈ [126, 127], SMap.get? (rekeying ptr).chunks 5 = some [] ∧ (rekeying ptr).rst.mgmtDown = false ∧
    (SMap.get? (rekeying ptr).desc 5).map (fun d => (d.st, (rekeying ptr).keysLoaded d, decide (ptr + 1 < d.count * 64))) = some (.rekeying, true, decide (ptr = 126)) ∧
    (SMap.get? (after (.rekeyChunkComplete 5) (rekeying ptr)).desc 5).map (fun d => (d.st, d.keyId, d.newKey, d.rekeyPtr)) =
      some (if ptr = 126 then (.rekeying, 2047, 1, 127) else (.active, 1, 0, 0)) ∧
    (after (.rekeyChunkComplete 5) (rekeying ptr)).ops.rekeys = (if ptr = 126 then [⟨5, 2047, 1, 127⟩] else []) := by decide +kernel

/-! ## Stores, resets, firmware -/

/-- The one command of a payload is run at base and its head's background is as given. -/
def bgOf0 (i : Instr) (s : State) : Option Bg := ((after i s).head 0).bg

theorem witness_StoresAndFrameRetirement_store : base.vendorReady 0 (some 1) 4 (pay []) = true ∧ base.storeRefused = false ∧
    (after (.ledgerStore (.head 0) (pay [])) base).shadow.stores = 1 ∧ (after (.ledgerStore (.head 0) (pay [])) base).firm.store = some (.head 0, 0, 0) ∧
    (after (.ledgerStore (.head 0) (pay [])) base).shadow.led = base.led := by decide +kernel

/-- A ledger store that runs. -/
def storing : State := after (.ledgerStore (.head 0) (pay [])) base

theorem witness_StoresAndFrameRetirement_stored : 180 ≤ 180 ∧ storing.shadow.stores ≤ 200000 ∧ storing.firm.store = some (.head 0, 0, 0) ∧ storing.rst.pendingSrc = [] ∧ (∀ q, (storing.head q).doorbells = []) ∧ (storing.head 0).dbInt = false ∧
    outOf (.ledgerStoreEnd 180) storing = leBytes 4 1 ++ leBytes 4 180 ∧ (after (.ledgerStoreEnd 180) storing).firm.store = none := by decide +kernel

/-- SRAM_RETIRE of the last frame of slice 7. -/
def lastFrame : List Byte := pay ([7, 0, 0, 0] ++ leBytes 4 131071)

theorem witness_StoresAndFrameRetirement_retire : base.vendorReady 0 (some 1) 12 lastFrame = true ∧ field lastFrame 4 1 = (7 : SliceId).val ∧ base.sliceClash (7 : SliceId).val = none ∧ (base.head 0).bg = none ∧
    field lastFrame 5 1 = 0 ∧ field lastFrame 8 4 = 131071 ∧ base.retireTest 7 none 131071 = 0 ∧
    (((after (.sramRetire (.head 0) lastFrame) base).slice 7).front.entry 131071).retired = true ∧
    bgOf0 (.sramRetire (.head 0) lastFrame) base = some ⟨.sramRetire 7 none 131071 1, 0xC082, 0, 0, false, 0⟩ := by decide +kernel

/-- The frame is being retired. -/
def frameGoing : State := after (.sramRetire (.head 0) lastFrame) base

theorem witness_StoresAndFrameRetirement_retired : (frameGoing.head 0).bg = some ⟨.sramRetire 7 none 131071 1, 0xC082, 0, 0, false, 0⟩ ∧
    frameGoing.bgOf (fun b => match b with | .sramRetire q _ _ _ => q == 7 | _ => false) = some 0 ∧ frameGoing.rst.mgmtDown = false ∧ ((frameGoing.slice 7).front.entry 131071).present = false ∧
    (after (.sramRetireComplete 7) frameGoing).retireList.frames = [(7, 131071, frameGoing.beat.now)] ∧ ((after (.sramRetireComplete 7) frameGoing).head 0).bgLast = some ⟨0xC082, .success, 0⟩ := by decide +kernel

/-- Slice 7 is quiesced. -/
def quiesced : State := base.updSlice 7 (fun x => { x with quiesce := 2, quiescedAt := 2 ^ 26 - 2 ^ 20 })

theorem witness_ServiceResets_slice : quiesced.starting = false ∧ quiesced.vendorReady 0 (some 1) 8 (pay [7]) = true ∧ field (pay [7]) 4 1 = (7 : SliceId).val ∧ (7 : SliceId) ≠ 0 ∧ (quiesced.slice 7).clkAlive = true ∧
    (quiesced.slice 7).quiesce = 2 ∧ quiesced.sliceClash (7 : SliceId).val = none ∧ (quiesced.head 0).bg = none ∧
    ((after (.sliceReset (.head 0) (pay [7])) quiesced).slice 7).st = .resetting ∧ ((after (.sliceReset (.head 0) (pay [7])) quiesced).slice 7).todo = sliceSteps ∧
    bgOf0 (.sliceReset (.head 0) (pay [7])) quiesced = some ⟨.sliceReset 7, 0xC091, 0, 0, false, 0⟩ ∧ ((after (.sliceReset (.head 0) (pay [7])) quiesced).head 7).enabled = false ∧
    (∀ q : Port, ((after (.sliceReset (.head 0) (pay [7])) quiesced).head q).cause.lastReach = 3 ∧ ((after (.sliceReset (.head 0) (pay [7])) quiesced).head q).cause.sliceMask = 0x80) := by decide +kernel

theorem witness_ServiceResets_port : base.starting = false ∧ base.portIdle 7 = true ∧ base.vendorReady 0 (some 1) 8 (pay [7]) = true ∧
    ((after (.portReset (.head 0) (pay [7])) base).head 7).link = none ∧ ((after (.portReset (.head 0) (pay [7])) base).head 7).cause.lastReach = 4 := by decide +kernel

theorem witness_ServiceResets_package : ∀ w ∈ [true, false], ∀ s ∈ [{ base with rst := { base.rst with pkgReset := some w } }], s.starting = false ∧ s.power.flush = .idle ∧ s.firm.store = none ∧
    (after .packageResetAssert s).rst.pkgReset = none ∧ (after .packageResetAssert s).rst.mgmtDown = !w ∧ (∀ q, ((after .packageResetAssert s).head q).cause.lastReach = (if w then 2 else 5)) ∧
    (w = true → (after .packageResetAssert s).rst.todo = warmSteps) := by decide +kernel

theorem witness_ServiceResets_quiesce : ∀ s ∈ [base.updSlice 7 (fun x => { x with quiesce := 1 })], (s.slice 7).quiesce = 1 ∧ (∀ j, (s.chan 7 j).pace.opOpen = []) ∧ (∀ j, (s.chan 7 j).tenures = []) ∧
    ((after (.sliceQuiesced 7) s).slice 7).quiesce = 2 ∧ ((after (.sliceQuiesced 7) s).slice 7).quiescedAt = 2 ^ 26 ∧
    (quiesced.slice 7).quiescedAt + 2 ^ 20 ≤ quiesced.beat.events ∧ ((after (.quiesceTimeout 7) quiesced).slice 7).quiesce = 0 := by decide +kernel

/-- An open transfer of head 0 to slot 2. -/
def xfering (bs : List Byte) : State := { base with firm := { base.firm with xfer := some (0, 2, bs) } }

/-- A part of an image. -/
def part1 : List Byte := List.replicate 128 3

theorem witness_FirmwareAndItsRestarts_transfer : slotArea 2 = some 1 ∧ base.mailReady 0 = true ∧ (base.roles 0).getLsbD 3 = true ∧ (1 : Fin 2) ≠ base.firm.running ∧ base.firm.xfer = none ∧
    part1.length % 128 = 0 ∧ part1.length ≤ 65536 ∧ (after (.transferFw (.head 0) 2 .initiate 0 part1) base).firm.xfer = some (0, 2, part1) ∧
    1 * 128 = part1.length ∧ (after (.transferFw (.head 0) 2 .continue 1 part1) (xfering part1)).firm.xfer = some (0, 2, part1 ++ part1) ∧
    bgOf0 (.transferFw (.head 0) 2 .finish 1 part1) (xfering part1) = some ⟨.fwTransfer, 0x0201, 0, 0, false, 0⟩ ∧
    (after (.transferFw (.head 0) 2 .abort 0 []) (xfering part1)).firm.xfer = none := by decide +kernel

/-- The transfer is being verified. -/
def verifying : State := (xfering part1).updHead 0 (fun h => { h with bg := some ⟨.fwTransfer, 0x0201, 0, 0, false, 0⟩ })

theorem witness_FirmwareAndItsRestarts_verify : verifying.firm.xfer = some (0, 2, part1) ∧ (verifying.head 0).bg = some ⟨.fwTransfer, 0x0201, 0, 0, false, 0⟩ ∧ verifying.rst.mgmtDown = false ∧
    (after (.fwTransferEnd 0 false) verifying).firm.xfer = none ∧ (after (.fwTransferEnd 0 true) verifying).firm.area1 = none ∧
    ((after (.fwTransferEnd 0 true) verifying).head 0).bgLast = some ⟨0x0201, .fwVerificationFailed, 0⟩ := by decide +kernel

/-- An image stands in slot 2. -/
def slotted : State := { base with firm := { base.firm with area1 := some part1 } }

theorem witness_FirmwareAndItsRestarts_transferring : ([] : List Byte).length ≤ 65536 ∧ after (.transferFw (.head 0) 2 .initiate 0 []) verifying = verifying.said 0 .busy .none := by decide +kernel

theorem witness_FirmwareAndItsRestarts_writing : verifying.slotWriting 2 = true ∧ verifying.mailReady 0 = true ∧
    after (.activateFw (.head 0) 2 false) verifying = verifying.said 0 .busy .none := by decide +kernel

theorem witness_FirmwareAndItsRestarts_activate : slotted.slotWriting 2 = false ∧ slotted.firm.area 1 = some part1 ∧ slotted.storeRefused = false ∧ (slotted.head 0).bg = none ∧
    (after (.activateFw (.head 0) 2 false) slotted).fwRec.primary = 1 ∧ (after (.activateFw (.head 0) 2 false) slotted).fwRec.next = some 1 ∧ (after (.activateFw (.head 0) 2 false) slotted).fwRec.svn = 0x303 ∧
    (after (.activateFw (.head 0) 2 true) slotted).firm.act = some (0, 2) ∧ (after (.activateFw (.head 0) 2 true) slotted).rst.mgmtDown = true ∧
    bgOf0 (.activateFw (.head 0) 2 true) slotted = some ⟨.fwActivate 2, 0x0202, 0, 0, false, 0⟩ := by decide +kernel

/-- Slot 2 is on trial. -/
def trying (b : Bool) : State := { after (.activateFw (.head 0) 2 true) slotted with firm := { (after (.activateFw (.head 0) 2 true) slotted).firm with trial := b } }

theorem witness_FirmwareAndItsRestarts_trial : (trying true).firm.act = some (0, 2) ∧ (trying true).firm.trial = true ∧ (trying true).mgmtCanRun = true ∧ (trying true).rst.rung = [] ∧ (trying false).rst.rung = [] ∧ (trying true).groupRec = none ∧
    (after (.fwReadyPoint 500) (trying true)).firm.running = 1 ∧ (after (.fwReadyPoint 500) (trying true)).rst.mgmtDown = false ∧
    (after (.fwReadyPoint 500) (trying true)).fwRec.primary = 1 ∧ (∀ q, ((after (.fwReadyPoint 500) (trying true)).head q).mboxReady = true) ∧
    after (.fwActivationTimeout 500) (trying true) = trying false := by decide +kernel

theorem witness_FirmwareAndItsRestarts_back : (trying false).firm.trial = false ∧ (trying false).mgmtCanRun = true ∧ (trying false).groupRec = none ∧
    (after .managementRestartComplete (trying false)).firm.running = 0 ∧ (after .managementRestartComplete (trying false)).rst.mgmtDown = false ∧
    ((after .managementRestartComplete (trying false)).head 0).bgLast = some ⟨0x0202, .fwRolledBack, 0⟩ := by decide +kernel

theorem witness_FirmwareAndItsRestarts_watchdog : base.mgmtRuns = true ∧ base.rst.pendingSrc = [] ∧ base.starting = false ∧
    (∀ i ∈ [Instr.watchdog 250, .lockup], (after i base).rst.mgmtDown = true ∧ (∀ q : Port, ((after i base).head q).cause.lastReach = 5 ∧ ((after i base).head q).mboxReady = false) ∧
      ((after i base).head 7).cause.bits.getLsbD (if i = .lockup then 7 else 5) = true) := by decide +kernel

/-! ## Poison, the front store and requests -/

/-- What a slice holds of a whole line: its data, its poison and whether it is Dirty. -/
def lineIn (s : State) (k : SliceId) (l : Nat) : Option (Line × Bool × Bool) :=
  match (s.slice k).front.look l with
  | .full x _ dirty => some (x.read, x.poisoned, dirty)
  | _ => none

theorem witness_PoisonCommandsRun_line : (2 ^ 29 - 64) % 64 = 0 ∧ reg.inAperture 0 true (2 ^ 29 - 64) = true ∧ reg.regionAt (2 ^ 29 - 64) = some (5, desc1, 1) ∧ reg.owner ((2 ^ 29 - 64) / 64) = some 0 ∧
    reg.ingressCheck desc1 0 true = 0 ∧ (reg.slice 0).clkAlive = true ∧ reg.working 0 = true ∧ reg.injected.length < 64 ∧ reg.unverNode 0 ((2 ^ 29 - 64) / 64) = none ∧ reg.roomFor 0 ((2 ^ 29 - 64) / 64) = true ∧ (reg.slice 0).front.poison = [] ∧ reg.hasManage 0 = true ∧
    (after (.injectPoison (.head 0) (2 ^ 29 - 64)) reg).health.known = [((2 ^ 29 - 64) / 64, .injected)] ∧
    said? (.injectPoison (.head 0) (2 ^ 29 - 64)) reg = some (.reply (.head 0) .success .none) ∧
    lineIn (after (.clearPoison (.head 0) (2 ^ 29 - 64) 0x55) reg) 0 ((2 ^ 29 - 64) / 64) = some (0x55, false, true) ∧
    said? (.clearPoison (.head 0) (2 ^ 29 - 64) 0x55) reg = some (.reply (.head 0) .success .none) := by decide +kernel

/-- Group 0 of region 5 stands on the medium, in block 100 of bank 0, at its own page. -/
def onMedium : State := reg.updMedia 0 (fun m => { m with bmap := [(home0.key, ⟨100, .mapped, 0, 0, false⟩)] }.putBlock home0.chan home0.die 100 ⟨0, 0, 1, .data, 0, 1, false, false, false, false, 0, false, 0⟩)

theorem witness_PoisonCommandsRun_scan : (reg.head 0).bg = none ∧ 64 % 64 = 0 ∧ (reg.capacity - 64) % 64 = 0 ∧ reg.nextMapped ((reg.capacity - 64) / 64) (reg.capacity / 64) = none ∧
    reg.rangeStopped (reg.capacity - 64) 64 = false ∧ onMedium.rangeStopped 0 4096 = false ∧ reg.rangeStopped 0x1FFFFF00 256 = false ∧
    ((after (.scanMedia (.head 0) (reg.capacity - 64) 64) reg).head 0).bgLast = some ⟨0x4304, .success, 0⟩ ∧
    onMedium.nextMapped 0 64 = some (0, 0) ∧ 0 + 4096 ≤ onMedium.capacity ∧
    (bgOf0 (.scanMedia (.head 0) 0 4096) onMedium).map (fun b => (b.kind, b.op)) = some (.scan 0 64 1, 0x4304) := by decide +kernel

theorem witness_PoisonCommandsRun_abort : ∀ s ∈ [base.updHead 0 (fun h => { h with bg := some ⟨.scan 0 64 1, 0x4304, 0, 0, true, 0⟩, scanResults := [0] })],
    (s.head 0).bg = some ⟨.scan 0 64 1, 0x4304, 0, 0, true, 0⟩ ∧ ((after (.backgroundAbortBoundary 0) s).head 0).bg = none ∧
    ((after (.backgroundAbortBoundary 0) s).head 0).bgLast = some ⟨0x4304, .aborted, 0⟩ ∧ ((after (.backgroundAbortBoundary 0) s).head 0).scanResults = [0] := by decide +kernel

theorem witness_PoisonCommandsRun_abort_sweep : ∀ s ∈ [base.updHead 0 (fun h => { h with bg := some ⟨.lensSweep 0 [], 0xC032, 9, 0, true, 0⟩ })],
    (s.head 0).bg = some ⟨.lensSweep 0 [], 0xC032, 9, 0, true, 0⟩ ∧ (s.head 0).mutedBg = false ∧ ((after (.backgroundAbortBoundary 0) s).head 0).bg = none ∧
    (.mailbox (.head 0) .aborted (vHead 0 9 0) ∈ (after (.backgroundAbortBoundary 0) s).out) := by decide +kernel

/-- The front store of slice 0 after one commit. -/
def front1 : Front := ((Front.reset.commit 0 9 7 (BitVec.allOnes 64) 0x77 false true).map (·.1)).getD Front.reset

theorem witness_CommittedLineReadsBack : ∀ f ∈ [Front.reset, front1], SMap.sorted f.dir = true ∧ SMap.sorted f.spill = true ∧ f.spill.length < 2048 ∧
    (f.commit 0 9 8 (BitVec.allOnes 64) 0x88 false true).map (fun x => (x.2, x.1.look 8 == .miss, x.1.look 7 == f.look 7)) =
      some (if f = front1 then .frame else .newFrame false, false, true) := by decide +kernel

/-- The line of region 5 that the host reads and writes. -/
def hpa1 : Nat := 0x11FFFFFC0

theorem witness_LocalWriteCommits : reg.reaches 0 hpa1 true 5 desc1 1 (2 ^ 29 - 64) ∧ reg.ownsLine 0 desc1 1 (2 ^ 29 - 64) ∧
    substitute reg.mediaRec.absent 17 (reg.prism desc1 1 (2 ^ 29 - 64)) ≠ .nowhere ∧
    ((reg.slice 0).front.commit reg.beat.salt reg.beat.now ((2 ^ 29 - 64) / 64) (BitVec.allOnes 64) 0x99 false true).isSome = true ∧
    lineIn (after (.cxlMemWrite 0 hpa1 (BitVec.allOnes 64) 0x99 false ⟨[], .none⟩) reg) 0 ((2 ^ 29 - 64) / 64) = some (0x99, false, true) ∧
    said? (.cxlMemWrite 0 hpa1 (BitVec.allOnes 64) 0x99 false ⟨[], .none⟩) reg = some (.cxl 0 0 true 0 false 0 false 29000) := by
  unfold State.reaches State.ownsLine
  refine ⟨⟨by decide +kernel, by decide +kernel, by decide +kernel, by decide +kernel, by decide +kernel, by decide +kernel, by decide +kernel, by decide +kernel, ⟨0, false, by decide +kernel⟩, by decide +kernel, by decide +kernel⟩, ?_⟩
  decide +kernel

/-- Line 1 of region 5 is Dirty. -/
def dirty1 : State := after (.cxlMemWrite 0 0x100000040 (BitVec.allOnes 64) 0x99 false ⟨[], .none⟩) reg

theorem reaches_reads : ∀ s ∈ [dirty1, reg, onMedium], s.accepts 0 false = true ∧ s.hasData 0 = true ∧ (s.head 0).decode 0x100000040 = some 64 ∧ SMap.get? s.index (64 / 2 ^ 28) = some ⟨5, 0⟩ ∧
    (s.slice 0).fill = none ∧ (s.slice 0).waiting = [] ∧ (s.slice 0).cacheOn = true ∧ (s.slice 0).cacheFind 5 = some (0, ⟨5, false, some desc1⟩) ∧ SMap.get? s.desc 5 = some desc1 ∧ s.ingressCheck desc1 0 false = 0 := by decide +kernel

theorem reaches_of_reads (s : State) (h : s ∈ [dirty1, reg, onMedium]) : s.reaches 0 0x100000040 false 5 desc1 0 64 := by
  obtain ⟨h1, h2, h3, h4, h5, hw, h6, h7, h8, h9⟩ := reaches_reads s h
  exact ⟨h1, h2, h3, rfl, h4, h5, hw, h6, ⟨0, false, h7⟩, h8, h9⟩

theorem owns_reads (s : State) (h : s ∈ [dirty1, reg, onMedium]) : s.ownsLine 0 desc1 0 64 := by
  revert h; revert s; unfold State.ownsLine; decide +kernel

theorem witness_LocalReads_held : dirty1.reaches 0 0x100000040 false 5 desc1 0 64 ∧ dirty1.ownsLine 0 desc1 0 64 ∧ lineIn dirty1 0 (64 / 64) = some (0x99, false, true) ∧
    said? (.cxlMemRead 0 0x100000040 ⟨[], 0⟩ .none) dirty1 = some (.cxl 0 1 false 0x99 false 0 false 27000) :=
  ⟨reaches_of_reads _ (by simp), owns_reads _ (by simp), by decide +kernel, by decide +kernel⟩

theorem witness_LocalReads_zero : reg.reaches 0 0x100000040 false 5 desc1 0 64 ∧ reg.ownsLine 0 desc1 0 64 ∧ (reg.slice 0).front.look (64 / 64) = .miss ∧ (reg.lineSource 0 (64 / 64)).map (·.2) = some .zero ∧
    said? (.cxlMemRead 0 0x100000040 ⟨[], 0⟩ .none) reg = some (.cxl 0 0 false 0 false 0 false 480000) :=
  ⟨reaches_of_reads _ (by simp), owns_reads _ (by simp), by decide +kernel, by decide +kernel, by decide +kernel⟩

theorem witness_LocalReads_medium : onMedium.reaches 0 0x100000040 false 5 desc1 0 64 ∧ onMedium.ownsLine 0 desc1 0 64 ∧ (onMedium.slice 0).front.look (64 / 64) = .miss ∧
    onMedium.lineSource 0 (64 / 64) = some (.at home0, .media false 100 home0.page) ∧
    (after (.cxlMemRead 0 0x100000040 ⟨[], 0⟩ .none) onMedium).out = [] ∧ ((after (.cxlMemRead 0 0x100000040 ⟨[], 0⟩ .none) onMedium).head 0).inflight = [0] ∧
    ((after (.cxlMemRead 0 0x100000040 ⟨[], 0⟩ .none) onMedium).slice 0).reads.map (fun r => (r.line, r.block, r.page, r.chan.val)) = [(1, 100, home0.page, home0.chan)] :=
  ⟨reaches_of_reads _ (by simp), owns_reads _ (by simp), by decide +kernel, by decide +kernel, by decide +kernel, by decide +kernel, by decide +kernel⟩

/-- A Sealed region with its keys. -/
def descS : Desc := { desc1 with mode := .sealed, keyId := 1, tree := [(0, 0, 4, 2)] }

/-- The same, Sealed: its nodes' places on the medium are mapped, or lost. -/
def sealedMedium (st : MapState) : State :=
  let s := { onMedium with desc := [(5, descS)] }.updSlice 0 (fun x => { x with cache := [(0, ⟨5, false, some descS⟩)] })
  [treeLine 0 1 0, treeLine 0 0 0].foldl (fun s l => match s.pageOf l with
    | some pk => s.updMedia 0 (fun m => { m with bmap := SMap.put m.bmap (pk / 1024) ⟨7, st, 0, 0, false⟩ })
    | none => s) s

theorem sealed_reads : ∀ s ∈ [sealedMedium .mapped, sealedMedium .lost], s.accepts 0 false = true ∧ s.hasData 0 = true ∧ (s.head 0).decode 0x100000040 = some 64 ∧ SMap.get? s.index (64 / 2 ^ 28) = some ⟨5, 0⟩ ∧
    (s.slice 0).fill = none ∧ (s.slice 0).waiting = [] ∧ (s.slice 0).cacheOn = true ∧ (s.slice 0).cacheFind 5 = some (0, ⟨5, false, some descS⟩) ∧ SMap.get? s.desc 5 = some descS ∧ s.ingressCheck descS 0 false = 0 ∧
    substitute s.mediaRec.absent 17 (s.prism descS 0 64) ≠ .nowhere ∧ (s.slice 0).front.look (64 / 64) = .miss ∧
    (match s.lineSource 0 (64 / 64) with | some (.at _, .media _ _ _) => true | _ => false) = true ∧ descS.mode = .sealed := by decide +kernel

theorem sealedMedium_front : ∀ st ∈ [MapState.mapped, .lost], ((sealedMedium st).slice 0).tree.suspect = [] ∧ ((sealedMedium st).slice 0).front = Front.reset := by decide +kernel

theorem witness_LocalReads_sealed_tree (l : Nat) : Front.reset.look l = .miss := by simp [Front.look, Front.find, Front.findSpill, Front.reset, SMap.get?, List.findSome?_eq_none_iff.mpr]

theorem witness_LocalReads_sealed : (sealedMedium .mapped).lostNode 0 (64 / 64) = none ∧ ((after (.cxlMemRead 0 0x100000040 ⟨[], 0⟩ .none) (sealedMedium .mapped)).head 0).inflight = [0] ∧
    ((sealedMedium .lost).lostNode 0 (64 / 64)).isSome = true ∧ said? (.cxlMemRead 0 0x100000040 ⟨[], 0⟩ .none) (sealedMedium .lost) = some (.cxl 0 0 false 0 true 0 false 480000) := by decide +kernel

/-! ## Media reads -/

/-- Codeword of line 0 of a Clear region: data 0x5A, minor 3. -/
def cw0 : BitVec 640 :=
  0xea5a3eda4e4783a00375648bcd1a8c2e0000000000000000000000000000000000000000000000000000000000000000000000000000000000000000000000000000000000000000000000000000005a#640

/-- Codeword of node 0 of level 1 of slice 0: 0x77, parent counter 0. -/
def cwNode : BitVec 640 :=
  0x00180361a4234210007d1e7284a12e3900000000000000000000000000000000000000000000000000000000000000000000000000000000000000000000000000000000000000000000000000000077#640

/-- Information bits of a codeword. -/
def infoOf (v : BitVec 640) : BitVec 580 := v.extractLsb' 0 580

/-- A host's request number n. -/
def req (n : Nat) : Req := ⟨n, 0, false, 0, 0, 0, false, [], 0, none, 0⟩

/-- Read n of line 0 on slice 0. -/
def read0 (d : Desc) (n : Nat) (why : ReadFor) : MediaRead :=
  ⟨n, why, 0, 5, d, true, none, [], 0, 0, 100, 0, 0, false, true, 0, 0, 0, [], false, 0, false, none, [], false, none, none, none, false⟩

/-- The read of node 0 of level 1 that read 2 waits for. -/
def readNode (d : Desc) : MediaRead := { read0 d 6 (.node 1 0 (some 2) .fr false) with line := treeLine 0 1 0 }

/-- Reads of line 0 on slice 0: a host's (1), one that waits for its nodes (2), a repair (4), and the read of a node (6). -/
def reading0 (d : Desc) : State :=
  { mapped d with keys := [(1, slot1)], nextId := 10 }.updSlice 0 (fun x => { x with
    reads := [read0 d 1 (.host (req 3)), { read0 d 2 (.host (req 4)) with nodes := [1, 0] }, { read0 d 4 .repair with step := 2 }, readNode d] })
  |>.updHead 0 (fun h => { h with inflight := [3, 4, 5] })

/-- A host's read of line 0 that has completed, and whose fill of frame 7 is to land. -/
def filling : State := reg.updSlice 0 (fun x => { x with
  reads := [{ read0 desc1 3 (.host (req 5)) with fill := some 7, done := true }]
  front := { x.front with dir := [(7, ⟨0, true, 0, 0, false, true, false, 0, 0⟩)] } })

set_option maxRecDepth 100000 in
theorem codeword_checks : cwRead cw0 = .good (infoOf cw0) 0 ∧ (reading0 desc1).checkLine desc1 0 (infoOf cw0) 0 none = .ok 0x5A false false ∧
    cwClass cw0 (cwSoft cw0 0) = .good (infoOf cw0) 0 := by decide +kernel

theorem witness_MediaReadsEnd_quiet : (∀ x ∈ ((reading0 desc1).slice 0).reads, x.got = none ∧ x.fill = none) ∧
    (∀ (j : ChanId) (d : DieId), ∀ b ∈ (((reading0 desc1).chan 0 j).dies[d]).banks, b.2.due = false) := by decide +kernel

theorem witness_MediaReadsEnd_host : (reading0 desc1).readOf 0 1 = some (read0 desc1 1 (.host (req 3))) ∧ (reading0 desc1).readIssued 0 (read0 desc1 1 (.host (req 3))) = true ∧
    ((reading0 desc1).head 0).inflight.contains 3 = true ∧ desc1.readFill = false ∧ (read0 desc1 1 (.host (req 3))).version = none := by decide +kernel

set_option maxRecDepth 100000 in
theorem witness_MediaReadsEnd_host_ends : said? (.mediaReadStep 0 1 ⟨cw0, 0, 0⟩) (reading0 desc1) = some (.cxl 0 3 false 0x5A false 0 false 480000) := by decide +kernel

set_option maxRecDepth 100000 in
theorem node_checks : cwRead cwNode = .good (infoOf cwNode) 0 ∧ (reading0 descS).nodeOk 0 1 0 ((reading0 descS).parentCount 0 1 0) (infoOf cwNode) = true := by decide +kernel

theorem witness_MediaReadsEnd_node : (reading0 descS).readOf 0 2 = some { read0 descS 2 (.host (req 4)) with nodes := [1, 0] } ∧ (reading0 descS).lineSeal 0 = some 0 ∧
    ((reading0 descS).slice 0).reads.find? (fun x => match x.why with | .node level _ (some q) _ _ => q == 2 && level == 1 | _ => false) = some (readNode descS) ∧
    (reading0 descS).readIssued 0 (readNode descS) = true ∧ (readNode descS).step = 0 := by decide +kernel

set_option maxRecDepth 100000 in
theorem witness_MediaReadsEnd_node_ends : ((after (.treeNodeFetch 0 2 true ⟨cwNode, 0, 0⟩) (reading0 descS)).slice 0).reads.map (fun x => (x.rid, x.nodes)) = [(1, []), (2, [0]), (4, [])] := by
  decide +kernel

theorem witness_MediaReadsEnd_fill : filling.readOf 0 3 = some { read0 desc1 3 (.host (req 5)) with fill := some 7, done := true } ∧ ((filling.slice 0).front.entry 7).filling = true ∧
    ((filling.slice 0).front.entry 7).present = true ∧ ((filling.slice 0).front.entry 7).seg = 0 / 32 ∧ desc1.mode ≠ .sealed := by decide +kernel

set_option maxRecDepth 100000 in
theorem witness_MediaReadsEnd_fill_lands : lineIn (after (.readFillLand 0 3 [cw0]) filling) 0 0 = some (0x5A, false, false) := by decide +kernel

theorem witness_MediaReadsEnd_repair : (reading0 desc1).readOf 0 4 = some { read0 desc1 4 .repair with step := 2 } ∧ (reading0 desc1).readIssued 0 { read0 desc1 4 .repair with step := 2 } = true ∧
    ((reading0 desc1).slice 0).front.look 0 = .miss ∧
    (((reading0 desc1).slice 0).front.commit (reading0 desc1).beat.salt (reading0 desc1).beat.now 0 (BitVec.allOnes 64) 0x5A false false).isSome = true := by decide +kernel

theorem witness_MediaReadsEnd_patient : ((reading0 { desc1 with patient := true }).readOf 0 1).map (fun rd => (rd.done, rd.desc.patient)) = some (false, true) ∧ 1 < (reading0 desc1).nextId ∧
    (after (.patientReadDeadline 0 1) (reading0 { desc1 with patient := true })).out.contains (.cxl 0 3 false 0 true 0 false 4000000) = true ∧
    ((after (.patientReadDeadline 0 1) (reading0 { desc1 with patient := true })).slice 0).reads.map (fun x => (decide (x.why = .repair), x.step)) =
      [(false, 0), (true, 2), (false, 0), (true, 0)] := by decide +kernel

theorem witness_MediaReadsEnd_late : ∀ s ∈ [(reading0 desc1).updChan 0 0 (fun c => { c with arb := { c.arb with queue := [ChReq.plain .fr .read 0 100 0 0 0 0 (.read 1) 0 false] } })],
    (s.readOf 0 1).map (fun rd => (rd.done, s.readIssued 0 rd)) = some (false, false) ∧ (after (.frOverBound 0 1) s).out.contains (.cxl 0 3 false 0 true 0 false 480000) = true ∧
    ((after (.frOverBound 0 1) s).chan 0 0).arb.overBound = 1 := by decide +kernel

/-! ## Upkeep of slices, ports and registers -/

theorem witness_SliceUpkeep_fill : ∀ s ∈ [reg.updSlice 3 (fun x => { x with fill := some ⟨5, some desc1, false, 31, false⟩ })], (s.slice 3).fill = some ⟨5, some desc1, false, 31, false⟩ ∧
    (s.slice 3).waiting = [] ∧ (s.slice 3).refills = [] ∧ SMap.get? ((after (.descriptorFillLand 3) s).slice 3).cache 31 = some ⟨5, false, some desc1⟩ ∧
    ((after (.descriptorFillLand 3) s).slice 3).fill = none := by decide +kernel

theorem witness_SliceUpkeep_marked : ∀ s ∈ [reg.updSlice 3 (fun x => { x with fill := some ⟨5, none, true, 31, false⟩ })], (s.slice 3).fill = some ⟨5, none, true, 31, false⟩ ∧
    (s.slice 3).refills = [] ∧ (s.slice 3).waiting = [] ∧ ((after (.descriptorFillLand 3) s).slice 3).fill = none ∧ ((after (.descriptorFillLand 3) s).slice 3).cache = [] := by decide +kernel

theorem witness_SliceUpkeep_refill : ∀ s ∈ [(mapped { desc1 with pin := true }).updSlice 3 (fun x => { x with fill := some ⟨5, none, true, 31, true⟩ })],
    (s.slice 3).fill = some ⟨5, none, true, 31, true⟩ ∧ SMap.get? s.desc 5 = some { desc1 with pin := true } ∧
    ((after (.descriptorFillLand 3) s).slice 3).fill.map (fun g => (g.region, g.marked, g.refill, g.desc)) = some (5, false, true, some { desc1 with pin := true }) := by decide +kernel

/-- A directory entry that its header copies do not confirm. -/
def lostDir : State := base.updFront 3 (fun f => { f with
    dir := [(131070, ⟨9, true, 1, 1, false, false, false, 0, 0⟩)]
    frames := [(131071, ⟨⟨4, true, 3, 2, 1, 0⟩, ⟨4, true, 3, 2, 1, 0⟩, 4, true, [], []⟩)] })

theorem witness_SliceUpkeep_set : 8191 < 8192 ∧ 131071 / 16 = 8191 ∧ (∀ n ∈ List.range' 131056 16, ((lostDir.slice 3).front.headerOf n []).isSome = true) ∧ lostDir.retiredFrames 3 = [] ∧
    (((after (.directorySetRebuild 3 ⟨8191, [], [], 0⟩) lostDir).slice 3).front.entry 131071) = ⟨4, true, 3, 2, false, false, false, 0, 0⟩ ∧
    (((after (.directorySetRebuild 3 ⟨8191, [], [], 0⟩) lostDir).slice 3).front.entry 131070).present = false := by decide +kernel

theorem test_SliceUpkeep_words : ∀ s ∈ [base.updFront 3 (fun f => { f with rewrites := [4, 9] })], ((after (.sramWordRewrite 3) s).slice 3).front.rewrites = [9] := by decide +kernel

theorem witness_SliceUpkeep_patrol : ∀ s ∈ [dirty1.updFront 0 (fun f => { f with patrol := wordOf 0 1 })], (s.slice 0).front.lineOfWord (wordOf 0 1) = some 1 ∧
    (match (s.slice 0).front.look 1 with | .full x _ _ => x.vld.getLsbD (wordOf 0 1 % 8) | _ => false) = true ∧
    ((after (.sramPatrol 0 0) s).slice 0).front = { (s.slice 0).front with patrol := wordOf 0 1 + 1 } := by decide +kernel

/-- A repair that holds line 5 until it finds a frame; the front store as given. -/
def holds (f : Front) : State := base.updSlice 3 (fun x => { x with holding := [(5, 0x5B, false)], front := f })

theorem witness_SliceUpkeep_frame : ((holds Front.reset).slice 3).holding = [(5, 0x5B, false)] ∧
    (((holds Front.reset).slice 3).front.commit base.beat.salt base.beat.now 5 (BitVec.allOnes 64) 0x5B false false).isSome = true ∧
    lineIn (after (.repairFrameRetry 3) (holds Front.reset)) 3 5 = some (0x5B, false, true) ∧ ((after (.repairFrameRetry 3) (holds Front.reset)).slice 3).holding = [] := by decide +kernel

/-- A front store whose set of segment 0 is full of dirty frames. -/
def fullSet : Front := { Front.reset with dir := (List.range 16).map (fun i => (16 * Machine.setOf 0 0 + i, ⟨1000 + i, true, 1, 1, true, false, false, 0, 0⟩)) }

theorem witness_SliceUpkeep_waits : fullSet.commit base.beat.salt base.beat.now 5 (BitVec.allOnes 64) 0x5B false false = none ∧
    ((after (.repairFrameRetry 3) (holds fullSet)).slice 3).holding = [(5, 0x5B, false)] := by decide +kernel

theorem witness_SliceUpkeep_links : ∀ n ∈ [0, 2], ∀ s ∈ [{ base with health := { base.health with linkFails := if n = 0 then [] else [(base.linkIx 6 7, n)] } }], (6 : SliceId) ≠ 7 ∧ s.present 6 = true ∧ s.present 7 = true ∧
    SMap.getD s.health.linkFails (s.linkIx 6 7) 0 = n ∧ s.linkIx 6 7 = 27 ∧ (after (.relayRetrain 6 7 true) s).health.linkFails = [] ∧
    (after (.relayRetrain 6 7 false) s).linkUp 6 7 = decide (n = 0) ∧ (after (.relayFecFailure 6 ⟨7, 3⟩) s).health.errors[7] = 1 := by decide +kernel

/-- Every option. -/
def caps : LinkCaps := ⟨true, true, true, true, true, true, true, 0xF, 0xF, 0xF, .separate⟩

/-- A head whose port is down. -/
def down : State := base.updHead 7 (fun h => { h with link := none })

theorem witness_LinksTrain : down.present 7 = true ∧ (down.head 7).enabled = true ∧ (down.head 7).held = 0 ∧ down.power.flush = .idle ∧ down.power.sramLoss = false ∧ down.serdesRails = true ∧
    bestWidth (down.limitCaps 7 caps) = some 16 ∧ bestRate (down.limitCaps 7 caps) = some (64, .lo256) ∧ ((after (.linkTraining 7 caps) down).head 7).link = some ⟨16, 64, .lo256, .separate, false⟩ ∧
    bestWidth (down.limitCaps 7 { caps with x16 := false, x8 := false, x4 := false }) = none ∧
    ((after (.linkTraining 7 { caps with x16 := false, x8 := false, x4 := false }) base).head 7).link = none := by decide +kernel

theorem witness_IdeStreams_key : (base.roles 7).getLsbD 2 = true ∧ ((after (.ideKmMessage 7 true 5) base).head 7).ideMem = ⟨.secure, 5⟩ ∧
    ((after (.ideKmMessage 7 false 5) base).head 7).ideIo = ⟨.secure, 5⟩ := by decide +kernel

/-- Head 7's memory stream is Secure. -/
def secure7 : State := base.updHead 7 (fun h => { h with ideMem := ⟨.secure, 5⟩ })

theorem witness_IdeStreams_mac : secure7.present 7 = true ∧ (secure7.head 7).ideMem.st = .secure ∧ ((after (.ideMacFailure 7 true) secure7).head 7).ideMem.st = .insecure ∧
    (∀ q, ((after (.ideMacFailure 7 true) secure7).head q).alarm.sec = true ∧ ((after (.ideMacFailure 7 true) secure7).head q).alarm.cause = 3) ∧
    (after (.ideMacFailure 7 true) secure7).power.secAlarmL = false := by decide +kernel

theorem witness_PortResets : base.present 7 = true ∧ base.starting = false ∧ (base.head 7).held = 0 ∧ base.power.flush = .idle ∧ base.firm.store = none ∧
    (∀ i ∈ [(Instr.perst 7, (1 : BitVec 3), (8 : Nat)), (.hotReset 7, 2, 9)], ((after i.1 base).head 7).held = i.2.1 ∧ ((after i.1 base).head 7).link = none ∧
      ((after i.1 base).head 7).cause.bits.getLsbD i.2.2 = true ∧ ((after i.1 base).head 7).cause.lastReach = 4) ∧
    ((after (.refclkStop 7) base).head 7).held = 4 ∧ ((after (.refclkStop 7) base).head 7).cause.bits = (base.head 7).cause.bits ∧
    said? (.gpfRequest 7 true) base = some (.gpf 7 true) ∧
    ((after (.resetSourceRelease (.hot 7)) (after (.hotReset 7) base)).head 7).held = 0 := by decide +kernel

/-- A legal decoder. -/
def hdm : HdmReq := ⟨2 ^ 30, 2 ^ 28, 2 ^ 28, 1, 256, true⟩

theorem witness_DecodersCommit : base.present 7 = true ∧ ((base.head 7).dec[(7 : Fin 8)]).lock = false ∧ legalHdm hdm = true ∧ (∀ j : Fin 8, ((base.head 7).dec[j]).committed = false) ∧
    hdm.skip + hdm.size / hdm.ways ≤ base.capacity ∧ said? (.hdmDecoderCommit 7 7 hdm) base = some (.hdm 7 true) ∧
    legalHdm { hdm with gran := 255 } = false ∧ said? (.hdmDecoderCommit 7 7 { hdm with gran := 255 }) base = some (.hdm 7 false) ∧
    (((after (.hdmDecoderCommit 7 7 hdm) base).head 7).dec[(7 : Fin 8)]).lock = true ∧ (((after (.hdmDecoderCommit 7 7 hdm) base).head 7).dec[(7 : Fin 8)]).committed = true ∧
    said? (.hdmDecoderCommit 7 7 hdm) (after (.hdmDecoderCommit 7 7 hdm) base) = some (.hdm 7 false) := by decide +kernel

/-- Every sticky bit of head 7 is set. -/
def sticky : State :=
  { base with beat := { base.beat with codeErr := true, resync := true, backward := true } }.updHead 7 (fun h => { h with
    cause := ⟨0x7FF, 3, 0xFF⟩
    tq := { h.tq with underrun := true, overrun := true } })

theorem witness_RegisterWrites : sticky.ioOpen 7 = true ∧ ((after (.registerWrite 7 0x8018 true 0x00010008) sticky).head 7).cause = ⟨0x7F7, 3, 0xFE⟩ ∧
    (after (.registerWrite 7 0x8048 true 0x20) sticky).beat.codeErr = false ∧ (after (.registerWrite 7 0x8048 true 0x20) sticky).beat.resync = true ∧
    ((after (.registerWrite 7 0x8108 true 0x10000) sticky).head 7).tq.underrun = false ∧ ((after (.registerWrite 7 0x8110 true 0x40501) sticky).head 7).tq.threshold = 5 ∧
    (((after (.registerWrite 7 0xE070 true 0x99) sticky).head 7).msix[(7 : Fin 8)]).addr = 0x99 ∧
    ((sticky.head 7).pba).getLsbD (7 : Fin 8).val = false ∧ (((after (.registerWrite 7 0xE078 true 0x99) sticky).head 7).msix[(7 : Fin 8)]).masked = false ∧
    (0x8000 ≤ 0x9FFC ∧ 0x9FFC < 0xA000) ∧ 0x9FFC / 8 * 8 ≠ 0x8010 ∧ 0x9FFC / 8 * 8 ≠ 0x8018 ∧ 0x9FFC / 8 * 8 ≠ 0x8048 ∧ 0x9FFC / 8 * 8 ≠ 0x8108 ∧ 0x9FFC / 8 * 8 ≠ 0x8110 ∧
    after (.registerWrite 7 0x9FFC false 5) sticky = sticky := by decide +kernel

theorem witness_RegisterWrites_config : ((after (.registerWrite 7 0x10108 true (2 ^ 46)) sticky).head 7).viralEn = true ∧ ((after (.registerWrite 7 0x10010 true 0x123456789) sticky).head 7).bar0 = 0x123456789 &&& barMask ∧
    ((after (.registerWrite 7 0x10018 true 0x123456789) sticky).head 7).bar2 = 0x123456789 &&& barMask ∧ ((after (.registerWrite 7 0x2200 true (2 ^ 33)) sticky).head 7).dbInt = true ∧
    ((after (.registerWrite 7 0x8110 true 2) sticky).head 7).tq.q = [] ∧ sticky.hasManage 7 = true ∧ (1 : BitVec 64).getLsbD 0 = true ∧
    ((after (.registerWrite 7 0x8010 true 1) (after (.ideMacFailure 7 true) secure7)).head 0).alarm.sec = false ∧ after (.registerWrite 7 0x8010 true 2) sticky = sticky := by decide +kernel

/-- A queue of one entry, and a shadow. -/
def queued : State := base.updHead 7 (fun h => { h with tq := { h.tq with q := [(9, true)], last := 4 }, shadow := [(0x8FF8, 0x1234567800000009)], latch := [(0x8FF8, 0x55)] })

theorem witness_RegisterReads : queued.ioOpen 7 = true ∧ 0x8FF8 % 8 = 0 ∧ 0x8000 ≤ 0x8FF8 ∧ 0x8FF8 < 0xA000 ∧ said? (.regLowHalfRead 7 ⟨0x8FF8, false⟩) queued = some (.reg 7 0x8FF8 9) ∧
    said? (.regLowHalfRead 7 ⟨0x8FF8, true⟩) queued = some (.reg 7 0x8FF8 0x1234567800000009) ∧
    ((after (.regLowHalfRead 7 ⟨0x8FF8, false⟩) queued).head 7).latch = [(0x8FF8, 0x12345678)] ∧ SMap.get? (queued.head 7).latch 0x8FF8 = some 0x55 ∧
    said? (.regLowHalfRead 7 ⟨(0x8FF8 + 4), false⟩) queued = some (.reg 7 0x8FFC 0x55) ∧ ((after (.regLowHalfRead 7 ⟨(0x8FF8 + 4), false⟩) queued).head 7).latch = [] ∧ queued.hasManage 7 = true ∧
    ((after (.secAlarmClear 7) (after (.ideMacFailure 7 true) secure7)).head 0).alarm.sec = false ∧ (after (.secAlarmClear 7) (after (.ideMacFailure 7 true) secure7)).power.secAlarmL = true ∧
    (queued.head 7).tq.q = [(9, true)] ∧ said? (.tqDataRead 7 true) queued = some (.reg 7 0x8100 9) ∧ (base.head 7).tq.q = [] ∧ ((after (.tqDataRead 7 true) base).head 7).tq.underrun = true ∧
    (2 : BitVec 64).getLsbD 1 = true ∧ ((after (.tqFlush 7 2) queued).head 7).tq.q = [] ∧
    SMap.getD ((after (.shadowRefresh 7 0x8000) queued).head 7).shadow 0x8000 0 = queued.regNow 7 0x8000 := by decide +kernel

/-- Head 7's stream of CXL.io is Insecure. -/
def ioShut : State := queued.updHead 7 (fun h => { h with ideIo := ⟨.insecure, 5⟩, alarm := ⟨true, 3, 0, 1, 0⟩ })

theorem witness_RegisterReads_shut : ioShut.ioOpen 7 = false ∧ (∀ i ∈ [Instr.regLowHalfRead 7 ⟨0x8FF8, true⟩, .secAlarmClear 7, .tqDataRead 7 true, .tqFlush 7 2, .registerWrite 7 0x8110 true 2],
    after i ioShut = ioShut) := by decide +kernel

theorem witness_RegisterReads_lost : ∀ s ∈ [(base.updSlice 7 (fun x => { x with st := .lost, ok := false })).updHead 7 (fun h => { h with userRead := true, shadow := [(0x9000, 5)] })],
    s.present 7 = true ∧ 0x9000 ≤ 0x9FF8 ∧ 0x9FF8 < 0xA000 ∧ s.working 7 = false ∧ (s.head 7).userRead = true ∧ after (.shadowRefresh 7 0x9000) s = s := by decide +kernel

theorem witness_RegisterReads_unmanaged : ∀ s ∈ [(without 1 base).updHead 0 (fun h => { h with alarm := ⟨true, 3, 0, 1, 0⟩ })], s.hasManage 0 = false ∧ s.ioOpen 0 = true ∧
    ((after (.secAlarmClear 0) s).head 0).alarm = ⟨false, 0, 0, 0, 0⟩ := by decide +kernel

/-- A throttled head with credits to give back. -/
def throttled : State := (base.updSlice 0 (fun x => { x with pct := 50 })).updHead 7 (fun h => { h with credR := 250, credD := 256 })

theorem witness_MeteringAndExpiry : base.present 7 = true ∧ (base.head 7).link ≠ none ∧ (base.head 7).enabled = true ∧ base.dataWithheld = false ∧ base.pctMin = 100 ∧
    throttled.pctMin = 50 ∧ throttled.allWithheld 7 = false ∧ (throttled.head 7).credR ≤ 256 ∧ (throttled.head 7).credD ≤ 256 ∧ throttled.dataWithheld = false ∧
    ((after (.meterWindow 7) throttled).head 7).credR = 256 ∧ ((after (.meterWindow 7) throttled).head 7).window = throttled.windowQuota 7 - 6 := by decide +kernel

theorem test_MeteringAndExpiry_tags : ∀ s ∈ [base.updHead 7 (fun h => { h with dup := [⟨1, 0, some (.success, []), 2 ^ 26 - 10000000⟩, ⟨2, 0, none, 0⟩] })],
    ((after (.dupEntryExpire 7 1) s).head 7).dup.map (·.tag) = [2] ∧ ((after (.dupEntryExpire 7 2) s).head 7).dup.map (·.tag) = [1, 2] := by decide +kernel

/-! ## The beat, ageing and the Pacer -/

/-- The beat as it stands at base, but lost, with seven regular edges. -/
def lost : State := { base with beat := { base.beat with lost := true, regular := 7 } }

theorem witness_BeatEventsCount : 40 ≤ 40 ∧ base.beat.taken = true ∧ 900 ≤ 900 ∧ base.beat.lost = false ∧ base.beat.slew = 0 ∧
    (after (.beatEdge 40 900) base).beat.events = 2 ^ 26 + 1 ∧ (after (.beatEdge 40 900) base).beat.now = 2 ^ 40 + 1 ∧ (after (.beatEdge 450 900) base).beat.frame = some (0, 0) ∧
    (after (.beatEdge 449 900) { base with beat := { base.beat with frame := some (79, 1) } }).beat.frame = some (80, 3) ∧
    (after (.beatEdge 39 900) base).beat = base.beat ∧ (after (.beatLost 3000) base).beat.lost = true ∧ (after (.beatLost 3000) base).beat.events = 2 ^ 26 + 3 ∧
    lost.beat.lost = true ∧ (after .derivedBeat lost).beat.events = 2 ^ 26 + 1 ∧ lost.beat.regular = 7 ∧
    (after (.beatReturn 40 900 499) lost).beat.lost = false ∧ (after (.beatReturn 40 1100 499) lost).beat.events = 2 ^ 26 ∧
    (after (.beatReturn 40 1100 500) lost).beat.events = 2 ^ 26 + 1 := by decide +kernel

/-- The same with the channel rails and one channel of slice 7 down. -/
def lostDown : State := lost.updChan 7 15 (fun c => { c with up := false })

theorem witness_BeatsDriveSlices : lostDown.beat.lost = true ∧ lostDown.present 7 = true ∧ (lostDown.slice 7).st = .working ∧ (lostDown.chan 7 14).up = true ∧ lostDown.channelRail 7 = true ∧ (lostDown.chan 7 15).up = false ∧
    ((after .derivedBeat lostDown).chan 7 14).arb.credits = (lostDown.chan 7 14).arb.refill.credits ∧ ((after .derivedBeat lostDown).chan 7 15).arb = (lostDown.chan 7 15).arb.refill ∧
    ((after .derivedBeat lostDown).slice 7).front = (lostDown.slice 7).front ∧ ((after .derivedBeat lostDown).slice 7).media.tokens = (lostDown.beatTokens (lostDown.slice 7).media).tokens ∧
    slotShare #v[410, 20] true = ((400, 0, 0, 0), #v[10, 20]) ∧ slotShare #v[10, 20] true = ((10, 20, 0, 370), #v[0, 0]) ∧ slotShare #v[10, 20] false = ((10, 20, 370, 0), #v[0, 0]) := by decide +kernel

theorem witness_BeatsDriveSlices_idle : ∀ s ∈ [lost.updSlice 7 (fun x => { x with st := .rebuilding, ok := false })], s.working 7 = false ∧ (s.slice 7).st ≠ .lost ∧
    ((after .derivedBeat s).chan 7 14).arb = (s.chan 7 14).arb.refill := by decide +kernel

theorem witness_BeatsDriveSlices_lost : ∀ s ∈ [lost.updSlice 7 (fun x => { x with st := .lost })], s.beat.lost = true ∧ (s.slice 7).st = .lost ∧
    ((after .derivedBeat s).chan 7 15).arb = (s.chan 7 15).arb ∧ ((after .derivedBeat s).slice 7).media.tokens = (s.slice 7).media.tokens := by decide +kernel

/-- A frame of EPOCH e with its CRC. -/
def frameOf (e : BitVec 64) : BitVec 80 := (e ++ crc16Epoch e).cast (by rfl)

/-- The 80th data pulse of a frame of EPOCH e has been taken. -/
def framed (e : BitVec 64) (ep : Epoch) : State := { base with beat := { base.beat with frame := some (80, frameOf e), epoch := ep } }

/-- The beat counter of base. -/
def now0 : BitVec 64 := 2 ^ 40

theorem witness_EpochsAreFixed_frames : frameEpoch (frameOf (now0 - 80)) = some (now0 - 80) ∧ frameEpoch (frameOf 7 ^^^ 1) = none ∧ (framed 7 Epoch.code).beat.loaded = true ∧ base.beat.now = now0 ∧
    now0 ≤ (now0 - 80) + 80 ∧ (after .beatCodeFrame (framed (now0 - 80) Epoch.unfixed)).beat.epoch = .code ∧
    (after .beatCodeFrame (framed now0 Epoch.unfixed)).beat.now = now0 + 80 ∧ (after .beatCodeFrame (framed now0 Epoch.unfixed)).beat.delta = 80 ∧
    now0 < now0 + 80 ∧ (after .beatCodeFrame (framed now0 Epoch.code)).beat.now = now0 + 80 ∧
    (now0 - 81) + 80 < now0 ∧ (after .beatCodeFrame (framed (now0 - 81) Epoch.code)).beat.slew = 1 ∧
    (after .beatCodeFrame { framed 7 Epoch.unfixed with beat := { (framed 7 Epoch.unfixed).beat with loaded := false } }).beat.heldFrame = some (7, 0) ∧
    (after .beatCodeFrame { base with beat := { base.beat with frame := some (80, frameOf 7 ^^^ 1) } }).beat.codeErr = true := by decide +kernel

theorem witness_EpochsAreFixed_spoiled : ∀ s ∈ [{ base with beat := { base.beat with frame := some (80, frameOf (now0 - 80)), spoiled := true } }], s.beat.spoiled = true ∧
    frameEpoch (frameOf (now0 - 80)) = some (now0 - 80) ∧ after .beatCodeFrame s = { s with beat := { s.beat with frame := none, codeErr := true } } := by decide +kernel

theorem witness_EpochsAreFixed_provisional : (unfixed 4).beat.epoch = .unfixed ∧ 30000000 ≤ (unfixed 4).beat.events ∧ (after .epochProvisional (unfixed 4)).beat.epoch = .provisional ∧
    (after .epochProvisional (unfixed 4)).beat.tFix = 4 := by decide +kernel

theorem witness_EpochsAreFixed_host : ∀ pl ∈ [pay ([0, 0, 0, 0] ++ leBytes 8 4)], (unfixed 4).vendorReady 0 (some 1) 16 pl = true ∧ (unfixed 4).beat.source ≠ 0 ∧ (unfixed 4).beat.now ≤ BitVec.ofNat 64 (field pl 8 8) ∧
    (after (.epochSet (.head 0) pl) (unfixed 4)).beat.epoch = .host ∧ (after (.epochSet (.head 0) pl) (unfixed 4)).beat.now = 4 ∧ (after (.epochSet (.head 0) pl) (unfixed 4)).beat.tFix = 4 ∧
    field (outOf (.epochSet (.head 0) pl) (unfixed 4)) 0 8 = 4 := by decide +kernel

/-- A data block of beat t. -/
def blockAt (t : BitVec 48) : Block := ⟨t, 1, 1, .data, 0, 1, false, false, false, false, 0, true, 0⟩

/-- A pass over one block of slice 3 and one of slice 4. -/
def passing (kind : Nat) (todo : List Nat) : State :=
  { base with led := { led1 with time := ⟨some (1, ⟨2 ^ 39, false, kind, 0, 0, 0, 0⟩), none⟩ } }.updSlice 3 (fun x => { x with
    passTodo := todo
    media := { x.media with blocks := [(5, blockAt 9), (6, blockAt 10)] } })
  |>.updSlice 4 (fun x => { x with passTodo := [5] })

theorem witness_AgeingAndTheLens_exact : (passing 1 [5]).timeRec.pass = 1 ∧ ((passing 1 [5]).slice 3).passTodo = [5] ∧ SMap.get? ((passing 1 [5]).slice 3).media.blocks 5 = some (blockAt 9) ∧ 5 < 2 ^ 21 ∧
    fullBeat (blockAt 9).beat ((passing 1 [5]).timeRec.l.toNat + 2 ^ 47) ≤ (passing 1 [5]).beat.now.toNat ∧ (∃ q ∈ (passing 1 [5]).liveSlices, q ≠ 3 ∧ ((passing 1 [5]).slice q).passTodo ≠ []) ∧
    ((after (.exactPass 3) (passing 1 [5])).slice 3).passTodo = [] ∧
    (SMap.get? ((after (.exactPass 3) (passing 1 [5])).slice 3).media.blocks 5).map (fun b => (b.untrusted, b.beat)) = some (false, (exactBeat (2 ^ 40) (2 ^ 39) 0 0 0 (blockAt 9)).1) := by decide +kernel

theorem witness_AgeingAndTheLens_measured : (passing 2 [5, 6]).timeRec.pass ≠ 0 ∧ (passing 2 [5, 6]).present 3 = true ∧ ((passing 2 [5, 6]).slice 3).st ≠ .lost ∧
    ((passing 2 [5, 6]).slice 3).passTodo.find? (fun n => decide (n / 131072 = (ch16 (5 / 131072)).val)) = some 5 ∧
    ((passing 2 [5, 6]).chan 3 (ch16 (5 / 131072))).arb.queue.any (fun r => r.work == .calib (fin8 (5 / 16384)).val) = false ∧ (∃ x ∈ ((passing 2 [5, 6]).slice 3).passTodo, x ≠ 5) := by decide +kernel

/-- A die's response: these bytes and their CRC-8. -/
def reply (bs : List Byte) : List Byte := bs ++ [BitVec.ofNat 8 (crc8 bs)]

/-- A READ_TS response of TS31 as measured from a block. -/
def tsReply (blk : Nat) : List Byte := reply ([1, 2, 3, 1] ++ leBytes 3 (blk * 1024))

theorem witness_AgeingAndTheLens_reply : goodReply 8 (tsReply 5) = true ∧ tsMeasured (tsReply 5) = some (5, 0) ∧ goodReply 8 [] = false := by decide +kernel

theorem witness_AgeingAndTheLens_reply_todo : ((after (.measuredPassBlock 3 5 (tsReply 5)) (passing 2 [5, 6])).slice 3).passTodo = [6] := by decide +kernel

theorem witness_AgeingAndTheLens_reply_block :
    (SMap.get? ((after (.measuredPassBlock 3 5 (tsReply 5)) (passing 2 [5, 6])).slice 3).media.blocks 5).map (fun b => (b.untrusted, b.tempMax)) = some (false, 2) := by decide +kernel

theorem witness_AgeingAndTheLens_reply_bad : ((after (.measuredPassBlock 3 5 []) (passing 2 [5, 6])).slice 3).passTodo = [5, 6] := by decide +kernel

/-- A slice whose last age sweep is 2^24 beat events ago, with a block of age 10^13. -/
def sweepable : State := { base with beat := { base.beat with now := 10 ^ 13 + 9 } }.updSlice 3 (fun x => { x with
  pacer := { x.pacer with sweepAt := 2 ^ 26 - 2 ^ 24 }
  media := { x.media with blocks := [(5, { blockAt 9 with untrusted := false })] } })

theorem witness_AgeingAndTheLens_sweep : (sweepable.slice 3).pacer.sweepAt + 2 ^ 24 ≤ sweepable.beat.events ∧ sweepable.calibrating = false ∧ 10 ^ 13 ≤ sweepable.age { blockAt 9 with untrusted := false } ∧
    (SMap.get? ((after (.ageSweep 3) sweepable).slice 3).media.blocks 5).map (·.refresh) = some true ∧ ((after (.ageSweep 3) sweepable).slice 3).pacer.sweepAt = 2 ^ 26 := by decide +kernel

/-- LENS_CALIBRATE of an action on die 3 of channel 15 of slice 7. -/
def lensPl (a : Byte) : List Byte := pay [a, 7, 0x00, 0x80, 0x08, 1]

theorem witness_AgeingAndTheLens_lens : ∀ a ∈ [(0 : Byte), 1, 2], base.vendorReady 0 (some 1) 12 (lensPl a) = true ∧ field (lensPl a) 5 1 = (7 : SliceId).val ∧ base.sliceClash (7 : SliceId).val = none ∧ (base.head 0).bg = none ∧
    (∀ j ∈ maskChans (field (lensPl a) 6 2), base.chanAbsent 7 j.val = false) ∧ (∀ d ∈ maskSlices (field (lensPl a) 8 1), d.val < base.dies) ∧
    field (lensPl a) 4 1 = a.toNat ∧ field (lensPl a) 9 1 ≤ 1 ∧ maskChans (field (lensPl a) 6 2) = [15] ∧ maskSlices (field (lensPl a) 8 1) = [3] := by decide +kernel

theorem witness_AgeingAndTheLens_defaults : ∀ s ∈ [base.updSlice 7 (fun x => { x with chans := x.chans.set 15 { chan1 with up := false }, lens := [(120, 1), (123 * 120, 5)] })],
    (∀ j ∈ maskChans (field (lensPl 0) 6 2), (s.chan 7 j).up = false) ∧ ((after (.lensCalibrate (.head 0) (lensPl 0)) s).slice 7).lens = [(120, 1)] ∧
    outOf (.lensCalibrate (.head 0) (lensPl 0)) s = leBytes 8 0 := by decide +kernel

/-- A data block on die 3 of channel 15 of slice 7. -/
def oneBlock : State := base.updMedia 7 (fun m => m.putBlock 15 3 9 { blockAt 9 with untrusted := true })

theorem witness_AgeingAndTheLens_sweepAll : (lensTargets (lensPl 1)).flatMap (fun t => (oneBlock.combos 7 (t.1.val * 8 + t.2.val)).map (fun c => (t.1.val * 8 + t.2.val, c.1, c.2))) ≠ [] ∧
    (bgOf0 (.lensCalibrate (.head 0) (lensPl 1)) oneBlock).map (·.op) = some 0xC032 := by decide +kernel

/-- Die 3 of channel 15 of slice 7. -/
def die (s : State) : Die := (s.chan 7 15).dies[(3 : DieId)]

theorem witness_DiesAreCared_interval : ((oneBlock.chan 7 15).dies[(3 : DieId)]).present = true ∧ ((oneBlock.chan 7 15).dies[(3 : DieId)]).failed = false ∧ oneBlock.timeRec.pass = 0 ∧ oneBlock.sweeping 7 = false ∧
    ((oneBlock.chan 7 15).dies[(3 : DieId)]).calAt + (oneBlock.slice 7).pacer.parm.cal ≤ oneBlock.beat.events ∧ (((after (.calibrationInterval 7 15 3) base).chan 7 15).dies[(3 : DieId)]).calAt = 2 ^ 26 := by decide +kernel

theorem witness_DiesAreCared_read : ((oneBlock.slice 7).media.block (15 : ChanId).val (3 : DieId).val 9).holds = true ∧
    (oneBlock.chan 7 15).arb.queue.any (fun r => r.work == .calib (3 : DieId).val && r.block == 9) = false ∧ oneBlock.sweeping 7 = false ∧
    ((oneBlock.chan 7 15).dies[(3 : DieId)]).tsTries + 1 < 3 := by decide +kernel

theorem witness_DiesAreCared_read_reply : goodReply 8 (tsReply 9) = true ∧ tsMeasured (tsReply 9) = some (9, 0) := by decide +kernel

theorem witness_DiesAreCared_read_ptr : (((after (.calibrationRead 7 15 3 9 (tsReply 9)) oneBlock).chan 7 15).dies[(3 : DieId)]).calPtr = 10 := by decide +kernel

theorem witness_DiesAreCared_read_set : SMap.get? (((after (.calibrationRead 7 15 3 9 (tsReply 9)) oneBlock).chan 7 15).dies[(3 : DieId)]).sets 31 = some 0x030201 := by decide +kernel

theorem witness_DiesAreCared_read_bad : (((after (.calibrationRead 7 15 3 9 []) oneBlock).chan 7 15).dies[(3 : DieId)]).tsTries = 1 := by decide +kernel

/-- The die has two sectors of its scrub pass left, the last two of the block's last page. -/
def scrubbing : State := oneBlock.updChan 7 15 (·.updDie 3 (fun x => { x with scrubTodo := [(9, 2 ^ 16383 + 2 ^ 16382)], scrubDue := 0, quota := 2 ^ 32 }))

theorem witness_DiesAreCared_scrub : ((scrubbing.slice 7).media.block (15 : ChanId).val (3 : DieId).val 9).use = .data ∧ 1023 < scrubbing.writtenPages 7 (15 : ChanId).val (3 : DieId).val 9 ∧
    (SMap.getD (die scrubbing).scrubTodo 9 0).testBit (16 * 1023 + 15) = true ∧ 2 ^ 32 ≤ (die scrubbing).quota ∧ (die scrubbing).scrub = none ∧
    (die (after (.scrubRead 7 15 3 9 1023 15 []) scrubbing)).scrubTodo = [(9, 2 ^ 16382)] ∧ (die (after (.scrubRead 7 15 3 9 1023 15 []) scrubbing)).quota = 0 ∧
    (die (after (.scrubRead 7 15 3 9 1023 15 []) scrubbing)).scrub = some ⟨9, 1023, 15, 1, 1, [0, 1, 2, 3], 0, 0⟩ := by decide +kernel

theorem witness_DiesAreCared_late : (die scrubbing).scrubDue = 0 ∧ (die scrubbing).overdue = false ∧ (die (after (.scrubPassLate 7 15 3) scrubbing)).quota = 2 ^ 33 ∧
    (die (after (.scrubPassLate 7 15 3) scrubbing)).scrubLate = 1 ∧ after (.scrubPassLate 7 15 3) (after (.scrubPassLate 7 15 3) scrubbing) = after (.scrubPassLate 7 15 3) scrubbing := by decide +kernel

/-- The read of the last sector is out, at this step of the ladder, with these codewords still to be decoded. -/
def scrubOut (st : Nat) (bad : List Nat) : State := scrubbing.updChan 7 15 (·.updDie 3 (fun x => { x with scrub := some ⟨9, 1023, 15, 0, st, bad, 0, 0⟩ }))

set_option maxRecDepth 100000 in
theorem codeword_zero : cwRead 0 = .good 0 0 := by decide +kernel

set_option maxRecDepth 100000 in
theorem codeword_bad : cwRead 127#640 = .bad := by decide +kernel

theorem witness_DiesAreCared_ladder : (die (scrubOut 0 [3])).scrub = some ⟨9, 1023, 15, 0, 0, [3], 0, 0⟩ ∧ ((scrubOut 0 [3]).chan 7 15).workDone (.scrub (3 : DieId).val) = true ∧
    ScrubRead.wants ⟨9, 1023, 15, 0, 0, [3], 0, 0⟩ ≤ (List.replicate 4 (⟨0x7F, 0, 0⟩ : Sense)).length ∧
    (ScrubRead.lands ⟨9, 1023, 15, 0, 0, [3], 0, 0⟩ (List.replicate 4 ⟨0x7F, 0, 0⟩)).bad = [3] := by
  refine ⟨by decide +kernel, by decide +kernel, by decide +kernel, ?_⟩
  simp [ScrubRead.lands, ScrubRead.tries, goodBits, codeword_bad]

theorem witness_DiesAreCared_last : (die (scrubOut 2 [3])).scrub = some ⟨9, 1023, 15, 0, 2, [3], 0, 0⟩ ∧ ((scrubOut 2 [3]).chan 7 15).workDone (.scrub (3 : DieId).val) = true ∧
    ScrubRead.wants ⟨9, 1023, 15, 0, 2, [3], 0, 0⟩ ≤ (List.replicate 12 (⟨0x7F, 0, 0⟩ : Sense)).length := by decide +kernel

set_option maxRecDepth 100000 in
theorem witness_DiesAreCared_done : (((scrubOut 1 [3]).slice 7).media.block 15 3 9).mode ≠ 2 ∧ (ScrubRead.lands ⟨9, 1023, 15, 0, 1, [3], 0, 0⟩ (List.replicate 4 ⟨0, 0, 0⟩)).bad = [] ∧
    (die (after (.scrubRead 7 15 3 9 1023 15 (List.replicate 4 ⟨0, 0, 0⟩)) (scrubOut 1 [3]))).scrub = none ∧
    (((after (.scrubRead 7 15 3 9 1023 15 (List.replicate 4 ⟨0, 0, 0⟩)) (scrubOut 1 [3])).slice 7).media.block 15 3 9).refresh = true ∧
    (((after (.scrubRead 7 15 3 9 1023 15 (List.replicate 4 ⟨0, 0, 0⟩)) (scrubOut 0 [3])).slice 7).media.block 15 3 9).refresh = false := by decide +kernel

/-- Slice 7 at position n of its lap, with a deficit on a channel. -/
def lapping (n ended : Nat) : State := (base.updSlice 7 (fun x => { x with pacer := { x.pacer with suspended := false, pos := some n, ended := ended, next := some ⟨30, 60, 16, 26, 64, 65536⟩ } })).updChan 7 15 (fun c => { c with
  pace := { c.pace with deficit := 100, spent := 90, splitBudget := 40 } })

theorem witness_LapsAndSplits : ((lapping 16 4).slice 7).pacer.pos = some 16 ∧ 4 ≤ ((lapping 16 4).slice 7).pacer.ended ∧ (∀ e ∈ (lapping 16 4).desc, e.2.st ≠ .rekeying) ∧ ((lapping 16 4).chan 7 15).up = true ∧ (lapping 16 4).sprintNext 7 = true ∧
    ((after (.lapBoundary 7) (lapping 16 4)).slice 7).pacer.pos = some 0 ∧ ((after (.lapBoundary 7) (lapping 16 4)).slice 7).pacer.parm.normal = 30 ∧
    ((after (.lapBoundary 7) (lapping 16 4)).chan 7 15).pace.lapBudget = 3740 ∧ ((after (.lapBoundary 7) (lapping 16 4)).chan 7 15).pace.deficit = 0 ∧
    4 * 3 + 4 ≤ 16 ∧ ((after (.splitEnd 7) (lapping 16 3)).slice 7).pacer.ended = 4 ∧ ((after (.splitEnd 7) (lapping 16 3)).chan 7 15).pace.deficit = 150 ∧
    ((after (.splitEnd 7) (lapping 15 3)).slice 7).pacer.ended = 3 := by decide +kernel

theorem witness_LapsAndSplits_suspended : ∀ s ∈ [(lapping 16 3).updSlice 7 (fun x => { x with pacer := { x.pacer with suspended := true } })], s.suspended 7 = true ∧ (lapping 16 3).suspended 7 = false ∧
    ((after (.splitEnd 7) s).chan 7 15).pace.deficit = 100 := by decide +kernel

/-- A snapshot point: 65,536 beat events after step 12, with the queues of heads enabled. -/
def snapping : State := { base with
  beat := { base.beat with events := 65536 }
  heads := Vector.replicate 8 { head1 with tq := { Queue.reset with enable := true } } }

theorem witness_SnapshotsCeilingAndHeat_snapshot : snapping.beat.step12 = some 0 ∧ snapping.beat.points < (snapping.beat.events - 0) / 65536 ∧ snapping.rst.mgmtDown = false ∧ snapping.present 7 = true ∧
    (snapping.head 7).tq.enable = true ∧ (after .telemetrySnapshot snapping).firm.telSeq = 1 ∧ ((after .telemetrySnapshot snapping).head 7).tq.q.length = (snapping.record 7).length := by decide +kernel

/-- The snapshot point while firmware does not run. -/
def snapDown : State := { snapping with rst := { snapping.rst with mgmtDown := true } }

theorem witness_SnapshotsCeilingAndHeat_down : snapDown.beat.step12 = some 0 ∧ snapDown.beat.points < (snapDown.beat.events - 0) / 65536 ∧ snapDown.rst.mgmtDown = true ∧
    (after .telemetrySnapshot snapDown).firm.telSeq = 1 ∧ (after .telemetrySnapshot snapDown).heads = snapDown.heads := by decide +kernel

theorem witness_SnapshotsCeilingAndHeat_rho : ∀ s ∈ [{ dirty1 with prof := dirty1.prof.set 37 0 }], s.working 0 = true ∧ (s.slice 0).rhoAt + 65536 ≤ s.beat.events ∧ s.dirty 0 ≠ 0 ∧ s.share ≤ 8 * s.dirty 0 ∧
    ((after (.rhoSample 0) s).slice 0).rho.length = ((s.slice 0).rho.length + 1) ∧ ((after (.rhoSample 0) s).slice 0).rhoAt = 2 ^ 26 := by decide +kernel

/-- A sample and a recomputation are one beat event short of due. -/
def notDue : State := { base with power := { base.power with ceilAt := 2 ^ 26 - 65535 } }.updSlice 0 (fun x => { x with rhoAt := 2 ^ 26 - 65535 })

theorem witness_SnapshotsCeilingAndHeat_rho_low : (base.slice 0).rhoAt + 65536 ≤ base.beat.events ∧ 8 * base.dirty 0 < base.share ∧
    ((after (.rhoSample 0) base).slice 0).rho = (base.slice 0).rho ∧ ((after (.rhoSample 0) base).slice 0).rhoAt = 2 ^ 26 ∧
    notDue.beat.events < (notDue.slice 0).rhoAt + 65536 ∧ after (.rhoSample 0) notDue = notDue ∧
    notDue.beat.events < notDue.power.ceilAt + 65536 ∧ after .holdupCeilingRecompute notDue = notDue := by decide +kernel

theorem witness_SnapshotsCeilingAndHeat_ceiling : ¬ 12 ∈ base.rst.todo ∧ base.power.ceilAt + 65536 ≤ base.beat.events ∧ (after .holdupCeilingRecompute base).power.holdCeil % 64 = 0 ∧
    (after .holdupCeilingRecompute base).power.ceilAt = 2 ^ 26 ∧
    (((after (.sramTimingSetChange 7) (base.updSlice 7 (fun x => { x with sramBand := 3 }))).slice 7).sramSet = 3) := by decide +kernel

theorem witness_SnapshotsCeilingAndHeat_heat : base.power.flush ≠ .off ∧ base.present 7 = true ∧ ([(7, 920)] : List (Nat × Int)).find? (fun r => r.1 = (7 : SliceId).val) = some ((7 : SliceId).val, 920) ∧
    ([(7, 920)] : List (Nat × Int)).find? (fun r => r.1 = (3 : SliceId).val) = none ∧ base.power.thermShut = false ∧ ((base.slicesSample [(7, 920)]).serviceSample 500).tooHot = some (7, 920) ∧ base.powered = true ∧
    (after (.thermalSample [(7, 920)] 500) base).power.thermL = false ∧ (after (.thermalSample [(7, 920)] 500) base).power.flush = .window ∧
    ((base.slicesSample [(7, 919)]).serviceSample 500).tooHot = none ∧ (after (.thermalSample [(7, 919)] 500) base).power.thermL = true ∧
    ((after (.thermalSample [(7, 919)] 500) base).slice 7).samples = [919] := by decide +kernel

/-! ## Channels -/

/-- Die 3 of channel 15 of slice 7 in a state. -/
def die3 (s : State) : Die := (s.chan 7 15).dies[(3 : DieId)]

/-- A READ_TEMP response, valid or not. -/
def tempReply (t : Byte) (valid : Bool) : List Byte := reply [t, 0, if valid then 1 else 0, 0, 0, 0, 0]

/-- That response as TEMP_READOUT brings it. -/
def tempRead (t : Byte) (valid : Bool) : Instr := .tempReadout 7 15 3 ((tempReply t valid).take 7) ((tempReply t valid).getD 7 0)

/-- One interval of the die was without a reading. -/
def failedOnce : State := after (tempRead 0 false) base

theorem witness_ChannelsAreTended_temp : (die3 base).present = true ∧ (die3 base).failed = false ∧ (die3 base).tempFails = 0 ∧ 1 ≤ (die3 failedOnce).tempFails ∧
    goodReply 8 (tempReply 0 false) = true ∧ tempOf (tempReply 0 false) = none ∧ tempOf (tempReply 0xFF true) = some (-1) ∧ goodReply 8 ([] ++ [0]) = false ∧ (die3 base).tempTries + 1 < 3 ∧
    (die3 (after (tempRead 85 true) base)).temp = 85 ∧ (die3 (after (tempRead 85 true) base)).band = 3 ∧
    (die3 (after (tempRead 0 false) failedOnce)).band = 4 ∧ (die3 (after (.tempReadout 7 15 3 [] 0) base)).tempTries = 1 ∧ (die3 (after (.tempReadout 7 15 3 [] 0) base)).tempFails = 0 := by decide +kernel

/-- Tracking of channel 15 has been raised. -/
def tracked : State := after (.channelTracking 7 ⟨15, 9, -9, 0, 5⟩) base

theorem witness_ChannelsAreTended_track : (base.chan 7 15).up = true ∧ (base.chan 7 15).retraining = false ∧ (base.chan 7 15).trackAt + 65536 ≤ base.beat.events ∧
    (base.chan 7 15).tracking = false ∧
    (tracked.chan 7 15).trackAt = 67108864 ∧ (tracked.chan 7 15).tracking = true ∧ (tracked.chan 7 15).arb.queue.map (fun r => (r.sq, r.die)) = [(.tracking, 0), (.tracking, 2)] := by decide +kernel

theorem witness_ChannelsAreTended_recentre : ∀ s ∈ [tracked.updChan 7 15 (fun c => { c with arb := { c.arb with queue := [] } })], (s.chan 7 15).up = true ∧ (s.chan 7 15).retraining = false ∧
    (s.chan 7 15).tracking = true ∧ (s.chan 7 15).workDone .track = true ∧ ((after (.channelTracking 7 ⟨15, 9, -9, 0, 5⟩) s).chan 7 15).gate = #v[1, -1] ∧
    ((after (.channelTracking 7 ⟨15, 9, -9, 0, 5⟩) s).chan 7 15).rx = #v[0, 1] ∧ ((after (.channelTracking 7 ⟨15, 9, -9, 0, 5⟩) s).chan 7 15).tracking = false := by decide +kernel

/-- The channel retrains; so many attempts have failed. -/
def retrained (n : Nat) : State := base.updChan 7 15 (fun c => { c with retraining := true, retrainTries := n, delays := { c.delays with caWindow := 64 } })

/-- An attempt of a retrain whose narrowest windows are so wide, in 1/64 UI. -/
def tryOf (w : Nat) : TrainTry := ⟨[], [(0, 32), (0, 32)], List.replicate 16 (0, w), [(0, 20), (0, 20)], [0, 0], List.replicate 16 (0, 60), [(0, 10, 30), (1, 10, 30), (2, 10, 30), (3, 10, 30)], []⟩

theorem witness_ChannelsAreTended_retrain : base.channelRail 7 = true ∧ ((retrained 1).chan 7 15).retrainTries < 2 ∧ ((retrained 2).chan 7 15).retrainTries = 2 ∧
    (∀ a ∈ base.mediaRec.absent, a.mc ≠ 16 * (7 : SliceId).val + (15 : ChanId).val) ∧
    tryPasses (tryOf 23) ((retrained 2).groupDies 7 15).length ((retrained 2).chan 7 15).live false = true ∧ tryPasses (tryOf 22) ((retrained 2).groupDies 7 15).length ((retrained 2).chan 7 15).live false = false ∧
    (∀ d : DieId, (((retrained 2).chan 7 15).dies[d]).stWait = false) ∧ ((after (.channelRetrain 7 15 (tryOf 23) ⟨[], []⟩) (retrained 2)).chan 7 15).window = 23 ∧
    ((after (.channelRetrain 7 15 (tryOf 22) ⟨[], []⟩) (retrained 1)).chan 7 15).up = true ∧ ((after (.channelRetrain 7 15 (tryOf 22) ⟨[], []⟩) (retrained 1)).chan 7 15).retrainTries = 2 := by decide +kernel

theorem witness_ChannelsAreTended_absent : ((after (.channelRetrain 7 15 (tryOf 22) ⟨[], []⟩) (retrained 2)).chan 7 15).up = false ∧
    (after (.channelRetrain 7 15 (tryOf 22) ⟨[], []⟩) (retrained 2)).mediaRec.absent.map (·.mc) = [127] := by decide +kernel

/-- A STATUS response with causes. -/
def sts (causes : Byte) : List Byte := reply ([0, 0, 0, 0, causes] ++ List.replicate 10 0)

/-- The device has read STATUS of the dies of channel 15, and waits for what die 3 reported, with so many replies that failed. -/
def asked (n : Nat) : State := base.updChan 7 15 (fun c => { c with alert := true, dies := c.dies.set 3 { c.dies[(3 : DieId)] with stWait := true, stTries := n } })

theorem witness_AlertsAndLostBursts_alert : (base.chan 7 15).alerting = false ∧
    ((after (.alertAsserted 7 15 5 []) base).chan 7 15).arb.queue.map (fun r => (r.sq, r.die)) = [(.status, 0), (.status, 1), (.status, 2), (.status, 3)] ∧
    (die (after (.alertAsserted 7 15 5 []) base)).stWait = true := by decide +kernel

theorem witness_AlertsAndLostBursts_causes : goodReply 16 (sts 0x40) = true ∧ (DieStatus.ofBytes (sts 0x40)).causes = 0x40 ∧ goodReply 16 (sts 0) = true ∧ (DieStatus.ofBytes (sts 0)).causes = 0 ∧
    goodReply 16 [] = false ∧ ((asked 0).chan 7 15).workDone (.alert (3 : DieId).val) = true ∧ (die (asked 1)).stTries + 1 < 3 ∧ (die (asked 2)).stTries = 2 ∧
    (base.slice 7).media.deadDies.contains ((15 : ChanId).val * 8 + (3 : DieId).val) = false ∧
    ((after (.alertAsserted 7 15 5 [⟨3, sts 0x40, 0⟩]) (asked 0)).chan 7 15).arb.queue = [ChReq.plain .mx .readTemp 3 0 0 0 0 0 (.temp 3) 0 true, ChReq.plain .mx .clearAlert 3 0 0 0x40 0 0 (.alert 3) 0 true] ∧
    (die (after (.alertAsserted 7 15 5 [⟨3, sts 0, 0⟩]) (asked 0))).stWait = false ∧ ((after (.alertAsserted 7 15 5 [⟨3, [], 0⟩]) (asked 1)).chan 7 15).arb.queue.map (·.sq) = [.status] ∧
    (die (after (.alertAsserted 7 15 5 [⟨3, [], 0⟩]) (asked 2))).failed = true := by decide +kernel

/-- The alert line is low. -/
def alerted : State := base.updChan 7 15 (fun c => { c with alert := true })

theorem witness_AlertsAndLostBursts_stuck : 10 ≤ 10 ∧ (alerted.chan 7 15).alert = true ∧ (alerted.chan 7 15).alerting = false ∧
    ((after (.alertStuckTimeout 7 15 10) alerted).chan 7 15).retraining = true := by decide +kernel

/-- A read request of die 3. -/
def frReq : ChReq := ChReq.plain .fr .read 3 9 0 0 0 0 (.read 1) 0 false

/-- A tenure of a request. -/
def tenureOf (locked : Bool) (r : ChReq) : Tenure := ⟨r, false, 400, 0, locked, 0, 64, false, false, false, 0, false, false, none⟩

/-- The request is in tenure; read 1 of slice 7 is a host's. -/
def tenured (locked : Bool) (r : ChReq) : State := (base.updChan 7 15 (fun c => { c with arb := { c.arb with owner := some (tenureOf locked r) } })).updSlice 7 (fun x => { x with
  reads := [{ read0 desc1 1 (.host (req 3)) with chan := 15, die := 3, block := 9 }] })

theorem witness_AlertsAndLostBursts_burst : (die3 (tenured false frReq)).lostInRow = 0 ∧ recentBeats ((tenured false frReq).chan 7 15).lostBeats (tenured false frReq).beat.events = [] ∧
    ((tenured false frReq).chan 7 15).awaits 3 = some (tenureOf false frReq) ∧ ((tenured false frReq).readOf 7 1).map (·.why) = some (.host (req 3)) ∧
    frReq.again ((tenured false frReq).oneBitReq 7 15 frReq) true ≤ 2 ^ 19 ∧ frReq.again ((tenured false frReq).oneBitReq 7 15 frReq) false ≤ 2 ^ 19 ∧
    (((tenured false frReq).readOf 7 1).bind ((tenured false frReq).readFor 7)).map (·.2) = some (req 3) ∧
    ((after (.burstLost 7 15 ⟨3, 524288⟩) (tenured false frReq)).chan 7 15).arb.queue = [frReq] ∧ (die3 (after (.burstLost 7 15 ⟨3, 524288⟩) (tenured false frReq))).lostInRow = 1 ∧
    1 ≤ (die3 (after (.burstLost 7 15 ⟨3, 524288⟩) (tenured false frReq))).lostInRow ∧
    (die3 (after (.burstLost 7 15 ⟨3, 524288⟩) (after (.burstLost 7 15 ⟨3, 524288⟩) (tenured false frReq)))).failed = true := by decide +kernel

/-! ## The arbiter -/

/-- A write-back request of die 3, a read and a scrub wait; FD took the last grant. -/
def queue3 : State := base.updChan 7 15 (fun c => { c with arb := { c.arb with
  queue := [ChReq.plain .sc .read 3 9 1 2 0 0 (.scrub 3) 0 false, frReq]
  credits := #v[9, 9, 9, 9, 9, 9]
  lastGrant := some .fd } })

/-- The state in which a decision on channel 15 of slice 7 chooses, so long after the owner's first slot. -/
def readied (s : State) (since : Nat) : State :=
  s.updChan 7 15 (fun c => { c with arb := { c.arb with readied := c.readied (c.arb.chosen.toList ++ c.arb.queue) since } })

theorem witness_TheArbiterChooses : (readied base 0).choose 7 15 ((base.chan 7 15).arb.chosen.toList ++ (base.chan 7 15).arb.queue) 0 = none ∧
    (readied queue3 0).choose 7 15 ((queue3.chan 7 15).arb.chosen.toList ++ (queue3.chan 7 15).arb.queue) 0 = some frReq ∧ (queue3.chan 7 15).arb.lastGrant ≠ some .fr ∧ (queue3.chan 7 15).arb.chosen = none ∧
    frReq ∈ (queue3.chan 7 15).arb.queue ∧ frReq.rq = .fr ∧ (queue3.chan 7 15).ready frReq 0 = true ∧ ((after (.arbitrationDecision 7 ⟨15, 0⟩) queue3).chan 7 15).arb.chosen = some frReq ∧
    ((after (.arbitrationDecision 7 ⟨15, 0⟩) queue3).chan 7 15).arb.queue.length = 1 := by decide +kernel

/-- The read is chosen while a write-back is in tenure. -/
def chosen1 : State := base.updChan 7 15 (fun c => { c with arb := { c.arb with chosen := some frReq, owner := some (tenureOf false (ChReq.plain .fw .progLoad 1 4 0 0 0 0 (.drain 0) 0 false)) } })

theorem witness_GrantsTakeEffect : (chosen1.chan 7 15).arb.chosen = some frReq ∧ (chosen1.chan 7 15).pauseFor frReq = false ∧ chosen1.lateFor 7 frReq 9 false = false ∧
    chosen1.grantable 7 15 frReq false 4000 = true ∧ chosen1.grantable 7 15 frReq false 0 = false ∧
    ((after (.grantEffect 7 15 ⟨9, 4000, 0⟩) chosen1).chan 7 15).arb.chosen = none ∧
    ((after (.grantEffect 7 15 ⟨9, 4000, 0⟩) chosen1).chan 7 15).arb.tail = (chosen1.chan 7 15).arb.owner.toList.map (fun u => { u with lead := 4000 }) ∧
    ((after (.grantEffect 7 15 ⟨9, 4000, 0⟩) chosen1).chan 7 15).arb.owner.map (fun tn => (tn.req, tn.hold, tn.locked, tn.limit, tn.retry)) = some (frReq, SeqK.read.hold, false, 64, true) ∧
    (((after (.grantEffect 7 15 ⟨9, 4000, 0⟩) chosen1).chan 7 15).arb.stats[Rq.fr.ix]).grants = 1 ∧ after (.grantEffect 7 15 ⟨9, 0, 0⟩) chosen1 = chosen1 := by decide +kernel

/-- A page program in tenure under its lock. -/
def locked1 : State := (tenured true (ChReq.plain .fd .pageFinish 3 9 0 0 0 0 (.fold 77) 0 true)).setBank 7 15 3 9 (some ⟨.program 9 0, false, false, false, 0, []⟩)
  |>.updMedia 7 (fun m => { m with folds := [(15, [⟨3, 77, 9, none, 1, 1, 1, 0, 0, [], false, 0, []⟩])] })

theorem witness_TenuresEnd : ((tenured false frReq).chan 7 15).arb.pop.map (·.1) = some (tenureOf false frReq) ∧ (tenureOf false frReq).cut = false ∧
    ((after (.tenureEnd 7 15) (tenured false frReq)).chan 7 15).arb.owner = none ∧ ((after (.tenureEnd 7 15) (tenured false frReq)).chan 7 15).arb.credits[Rq.fr.ix] = -40 ∧
    ((tenured false frReq).chan 7 15).arb.owner = some (tenureOf false frReq) ∧ frReq.sq.starts = false ∧ frReq.sq ≠ .progLoad ∧ SMap.get? (die3 (tenured false frReq)).banks (frReq.block % 16) = none ∧
    ((tenured false frReq).slice 7).media.foldSet (15 : ChanId).val = [] ∧ (die3 (tenured false frReq)).failed = false ∧ (frReq.latency false).isSome = true ∧ (tenured false frReq).canIssue 7 15 = true ∧
    ((after (.holdLimitCutoff 7 15) (tenured false frReq)).chan 7 15).arb.queue = [frReq] ∧ ((after (.holdLimitCutoff 7 15) (tenured false frReq)).chan 7 15).arb.tail.map (fun u => (u.req, u.cut)) = [(frReq, true)] ∧
    ((after (.holdLimitCutoff 7 15) (tenured false frReq)).chan 7 15).arb.credits[Rq.fr.ix] = -64 := by decide +kernel

/-- The channel of the read in tenure retrains. -/
def tenuredQuiet : State := (tenured false frReq).updChan 7 15 (fun c => { c with retraining := true })

theorem witness_TenuresEnd_quiet : (tenuredQuiet.chan 7 15).arb.owner = some (tenureOf false frReq) ∧ SMap.get? (die3 tenuredQuiet).banks (frReq.block % 16) = none ∧ tenuredQuiet.canIssue 7 15 = false ∧
    (tenuredQuiet.slice 7).media.foldSet (15 : ChanId).val = [] ∧ (die3 tenuredQuiet).failed = false ∧ ((after (.holdLimitCutoff 7 15) tenuredQuiet).chan 7 15).aborts = [(3, 9)] := by decide +kernel

/-- A tenure that FD's fault leaves alone, and one of a lock it cuts off. -/
def lockedOf (f : OwnerFault) (t : Tenure) : Bool := t.req.rq.ix == f.rq && !t.cut && t.locked

theorem witness_TenuresEnd_fault : (locked1.chan 7 15).tenures.filter (lockedOf ⟨15, 2, 9⟩) = [tenureOf true (ChReq.plain .fd .pageFinish 3 9 0 0 0 0 (.fold 77) 0 true)] ∧
    (die3 locked1).failed = false ∧ locked1.canIssue 7 15 = true ∧ SMap.get? (die3 locked1).banks (9 % 16) = some ⟨.program 9 0, false, false, false, 0, []⟩ ∧
    (((locked1.slice 7).media.foldSet (15 : ChanId).val).find? (fun m => m.die == (3 : DieId) && m.blk == 9)).map (·.key) = some 77 ∧
    ((after (.lockOwnerFault 7 ⟨15, 2, 9⟩) locked1).chan 7 15).arb.lockAbandoned = 1 ∧ ((after (.lockOwnerFault 7 ⟨15, 2, 9⟩) locked1).slice 7).media.urgent = [77] ∧
    ((tenured false frReq).chan 7 15).tenures.filter (lockedOf ⟨15, 0, 9⟩) = [] ∧
    ((after (.lockOwnerFault 7 ⟨15, 0, 9⟩) (tenured false frReq)).chan 7 15).arb.owner = some { tenureOf false frReq with discard := true } := by decide +kernel

theorem witness_TenuresEnd_tail : ∀ s ∈ [(tenured true frReq).updChan 7 15 (fun c => { c with arb := { c.arb with tail := [{ tenureOf false frReq with discard := true }], credits := #v[-4096, 0, 0, 0, 0, 0] } })],
    (s.chan 7 15).arb.tail = [{ tenureOf false frReq with discard := true }] ∧ ((after (.tenureEnd 7 15) s).chan 7 15).arb.tail = [] ∧ ((after (.tenureEnd 7 15) s).chan 7 15).arb.queue = [frReq] ∧ ((after (.tenureEnd 7 15) s).chan 7 15).arb.credits[Rq.fr.ix] = -4096 ∧
    ((after (.tenureEnd 7 15) s).chan 7 15).arb.owner = (s.chan 7 15).arb.owner := by decide +kernel

theorem witness_TenuresEnd_cut : ∀ s ∈ [after (.holdLimitCutoff 7 15) (tenured false frReq)], (s.chan 7 15).arb.pop.map (·.1.cut) = some true ∧
    ((after (.tenureEnd 7 15) s).chan 7 15).arb.tail = [] ∧ ((after (.tenureEnd 7 15) s).chan 7 15).arb.credits[Rq.fr.ix] = -64 := by decide +kernel

/-- Bank 9 of die 3 holds an operation. -/
def banked (x : BankSt) : State := base.setBank 7 15 3 9 (some x)

/-- A program of page 4 of block 9, paused or in its run window, with its last change of state at 0. -/
def prog9 (paused window : Bool) : BankSt := ⟨.program 9 4, paused, window, false, 0, []⟩

theorem witness_BanksResumeAndComplete : ((banked (prog9 true false)).chan 7 15).frReady 3 9 = false ∧ ((banked (prog9 true false)).chan 7 15).talks 3 = true ∧
    ((banked (prog9 true false)).chan 7 15).readHolds 3 9 = false ∧ SMap.get? (die3 (banked (prog9 true false))).banks (9 : BankId).val = some (prog9 true false) ∧
    12000 ≤ (prog9 true false).pausedFor (((banked (prog9 true false)).updChan 7 15 (·.tick 12000)).chan 7 15).now ∧ (prog9 true false).pausedFor 11999 = 11999 ∧
    SMap.get? (die3 (after (.bankResume 7 15 3 ⟨9, 400⟩) (banked (prog9 true false)))).banks 9 = some ⟨.program 9 4, false, false, false, 400, [(0, 400)]⟩ ∧
    SMap.get? (die3 (after (.runWindowStart 7 15 3 9 12000) (banked (prog9 true false)))).banks 9 = some ⟨.program 9 4, false, true, false, 12000, [(0, 12000)]⟩ ∧
    SMap.get? (die3 (after (.runWindowStart 7 15 3 9 11999) (banked (prog9 true false)))).banks 9 = some (prog9 true false) ∧
    (prog9 false true).since + (prog9 false true).op.window ≤ (((banked (prog9 false true)).updChan 7 15 (·.tick (BankOp.program 9 4).window)).chan 7 15).now ∧
    SMap.get? (die3 (after (.runWindowEnd 7 15 3 9 (BankOp.program 9 4).window) (banked (prog9 false true)))).banks 9 = some (prog9 false false) := by decide +kernel

theorem witness_BanksResumeAndComplete_ends :
    SMap.get? (die3 (after (.arrayOperationComplete 7 15 3 9) (banked ⟨.write 9, false, false, false, 0, []⟩))).banks 9 = none ∧ 16377 % 16 = (9 : BankId).val ∧
    ((base.slice 7).media.block (15 : ChanId).val (3 : DieId).val 16377).use ≠ .retired ∧
    (∀ t ∈ [after (.arrayOperationComplete 7 15 3 9) (banked ⟨.reset 16377 true, false, false, false, 0, []⟩)], ((t.slice 7).media.block 15 3 16377).use = .ready ∧
      ((t.slice 7).media.block 15 3 16377).mode = 2 ∧ ((t.slice 7).media.block 15 3 16377).resets = ((base.slice 7).media.block 15 3 16377).resets + 1) := by decide +kernel

/-- The bank is paused by a read whose burst has not begun. -/
def heldBank : State := (tenured false frReq).setBank 7 15 3 9 (some (prog9 true false))

theorem witness_BanksResumeAndComplete_due : (heldBank.chan 7 15).talks 3 = true ∧ (heldBank.chan 7 15).readHolds 3 9 = true ∧
    SMap.get? (die3 (after (.bankResume 7 15 3 ⟨9, 400⟩) heldBank)).banks 9 = some (prog9 true false) ∧
    SMap.get? (die3 (after (.runWindowStart 7 15 3 9 12000) heldBank)).banks 9 = some ⟨.program 9 4, true, false, true, 0, []⟩ ∧ ((retrained 1).chan 7 15).talks 3 = false := by decide +kernel

/-! ## Drains, folds, collection -/

/-- A front store that reads as it was written, and nothing brought from the medium. -/
def sound : DrainRead := ⟨[], [], [], [], []⟩

/-- A front store that reads sound leaves the state as it is. -/
def readsSound (s : State) (k : SliceId) (pk : Nat) : Bool := match s.readForDrain k pk sound with | (b, t) => b && decide (t = s)

/-- Line 1 is Dirty in an aged frame, and the die of its page has a journal whose head has its last page free. -/
def drainable : State := (dirty1.updMedia 0 (fun m => { m with journals := [(0, ⟨[20], 511, [21], [], []⟩)] })).updFront 0 (fun f => { f with aged := f.dir.map (·.1) })

/-- The overlay set of page 0 is full of other blocks' entries. -/
def ovFull : List (Nat × OvEntry) := (List.range 8).map (fun i => ((2 * i + 1) * 2 ^ 18 + (2 * i + 1), ⟨9, 0, 1, .block, false, 0, 0⟩))

theorem witness_PagesAreDrained_wait : ∀ s ∈ [drainable.updMedia 0 (fun m => { m with overlay := ovFull })], (s.slice 0).st = .working ∧ s.pageNeeds 0 0 ≠ [] ∧ (s.slice 0).media.ovRoom 0 = false ∧
    ((s.slice 0).media.entry (0 / 1024)).st ≠ .dead ∧ s.noPlace 0 0 = false ∧ readsSound s 0 0 = true ∧ ((after (.journalDrain 0 0 sound) s).slice 0).media.waiting = [0] ∧ ovFull.all (fun e => ((after (.journalDrain 0 0 sound) s).slice 0).media.urgent.contains (e.1 / 1024)) = true := by decide +kernel

theorem witness_PagesAreDrained_drain : (drainable.slice 0).st = .working ∧ drainable.pageNeeds 0 0 = [(1, 1)] ∧ drainable.canDrain 0 0 = true ∧ drainable.drainTurn 0 0 = true ∧ drainable.rekeyPage 0 0 = none ∧
    ((drainable.slice 0).media.entry (0 / 1024)).st ≠ .dead ∧ (∀ a ∈ drainable.mediaRec.absent, a.mc ≠ 16 * 0 + 0 / 2 ^ 27 % 16) ∧ treeOf 1 = none ∧ drainable.lineSeal 1 = none ∧
    ((drainable.slice 0).media.journal 0).ring.getLast? = some 20 ∧ ((drainable.slice 0).media.journal 0).headPage < 512 ∧
    readsSound drainable 0 0 = true ∧
    (∀ i ∈ List.range 64, ∀ c ∈ [true, false], drainable.lineOpen 0 0 i ((drainable.slice 0).media.resolve 0 (i / 4) false) sound.olds c = false) ∧
    ((after (.journalDrain 0 0 sound) drainable).slice 0).media.drains.map (fun d => (d.key, d.jblock, d.jpage, d.seq)) = [(0, 20, 511, 1)] ∧
    ((after (.journalDrain 0 0 sound) drainable).slice 0).media.overlay = [] := by decide +kernel

theorem witness_PagesAreDrained_headers : drainable.framesOfPage 0 0 ≠ [] ∧ drainable.pageSeal 0 0 = none := by decide +kernel

/-- The same page with no unwritten journal page on its die, whose channel is Exhausted. -/
def unplaced : State := drainable.updMedia 0 (fun m => { m with journals := [(0, ⟨[20], 512, [], [], []⟩)], health := SMap.put m.health 0 4 })

theorem witness_PagesAreDrained_unplaced : (unplaced.slice 0).st = .working ∧ readsSound unplaced 0 0 = true ∧ unplaced.pageNeeds 0 0 ≠ [] ∧ unplaced.canDrain 0 0 = true ∧ unplaced.drainTurn 0 0 = true ∧
    unplaced.rekeyPage 0 0 = none ∧ (unplaced.slice 0).media.ovRoom 0 = true ∧ ((unplaced.slice 0).media.entry (0 / 1024)).st ≠ .dead ∧ (∀ a ∈ unplaced.mediaRec.absent, a.mc ≠ 16 * 0 + 0 / 2 ^ 27 % 16) ∧
    unplaced.noPlace 0 0 = true ∧ (SMap.get? ((after (.journalDrain 0 0 sound) unplaced).slice 0).media.overlay 0).map (fun e => (e.kind, e.sectors)) = some (.poison, 0) := by decide +kernel

/-- A drain of page 0 whose channel work is done. -/
def drained : State := (after (.journalDrain 0 0 sound) drainable).updChan 0 0 (fun c => { c with arb := { c.arb with queue := [] } })

theorem witness_PagesAreDrained_commit : ((drained.slice 0).media.drainOn (0 : ChanId).val (0 : DieId).val).map (fun d => (d.aborted, d.jblock)) = some (false, 20) ∧
    SMap.get? ((drained.chan 0 0).dies[(0 : DieId)]).banks (20 % 16) = none ∧ (drained.chan 0 0).workDone (.drain 0) = true ∧ (drained.slice 0).heldReqs = [] ∧
    (SMap.get? ((after (.drainCommit 0 0 0) drained).slice 0).media.overlay 0).map (fun o => (o.jblock, o.jpage, o.seq, o.kind)) = some (20, 511, 1, OvKind.block) ∧
    ((after (.drainCommit 0 0 0) drained).slice 0).media.drains = [] ∧ ((drained.slice 0).media.journal 0).ahead ≠ [] ∧
    ((after (.journalWriteFail 0 0 0) drained).slice 0).media.drains.map (fun d => (d.key, d.jblock, d.jpage, d.seq, d.rewrite)) = [(0, 21, 0, 2, true)] ∧
    ((after (.journalWriteFail 0 0 0) drained).slice 0).media.journals.map (fun j => j.2.failed) = [[20]] := by decide +kernel

/-- The drain took line 1 up poisoned, and the line is on the poison list. -/
def poisonDrained : State := (drained.updMedia 0 (fun m => { m with drains := m.drains.map (fun d => { d with psn := 2 }) })).updFront 0 (fun f => { f with poison := [1] })

theorem witness_PagesAreDrained_poison : ((poisonDrained.slice 0).media.drainOn (0 : ChanId).val (0 : DieId).val).map (fun d => (d.aborted, d.lines.getLsbD 1, d.psn.getLsbD 1)) = some (false, true, true) ∧
    poisonDrained.lineOfPage 0 0 1 = some 1 ∧ (poisonDrained.slice 0).heldReqs = [] ∧ SMap.get? ((poisonDrained.chan 0 0).dies[(0 : DieId)]).banks (20 % 16) = none ∧
    (poisonDrained.chan 0 0).workDone (.drain 0) = true ∧ ((after (.drainCommit 0 0 0) poisonDrained).slice 0).front.poison = [] := by decide +kernel

/-- The write of page 0 was aborted. -/
def abortedPage : State := drained.updMedia 0 (fun m => { m with
  drains := m.drains.map (fun d => { d with aborted := true })
  journals := [(0, ⟨[20], 3, [21], [], []⟩)] })

theorem witness_PagesAreDrained_aborted : ((abortedPage.slice 0).media.drainOn (0 : ChanId).val (0 : DieId).val).map (·.aborted) = some true ∧ ((abortedPage.slice 0).media.journal 0).ring.getLast? = some 20 ∧
    ((abortedPage.slice 0).media.journal 0).headPage < 512 ∧
    ((after (.journalWriteFail 0 0 0) abortedPage).slice 0).media.drains.map (fun d => (d.key, d.jblock, d.jpage, d.seq, d.rewrite, d.aborted)) = [(0, 20, 3, 2, true, false)] ∧
    ((after (.journalWriteFail 0 0 0) abortedPage).slice 0).media.journals.map (fun j => j.2.failed) = [[]] := by decide +kernel

/-- Logical block 0 of channel 0 is to be folded, and a ready block waits. -/
def foldable : State := reg.updMedia 0 (fun m => { m with
  urgent := [0]
  overlay := [(5, ⟨20, 4, 1, .block, false, 0, 3⟩)]
  bmap := [(0, ⟨100, .mapped, 2, 7, false⟩)]
  blocks := [(16, { blockAt 9 with use := .ready }), (100, blockAt 9)] })

theorem witness_FoldsRun_open : 0 / 2 ^ 17 = (0 : ChanId).val ∧ (foldable.slice 0).media.deadDies.contains (0 / 2 ^ 14) = false ∧ (foldable.chan 0 0).up = true ∧ SMap.getD (foldable.slice 0).media.health (0 : ChanId).val 0 ≠ 4 ∧
    ((foldable.slice 0).media.entry 0).folding = false ∧ ((foldable.slice 0).media.entry 0).st ≠ .dead ∧ (foldable.slice 0).media.foldTurn 0 = true ∧ (∀ d ∈ (foldable.slice 0).media.drains, d.key / 1024 ≠ 0) ∧
    (foldable.slice 0).media.foldSet (0 : ChanId).val = [] ∧
    (foldable.slice 0).media.allocate (0 : ChanId).val (0 / 2 ^ 14 % 8) (0 / 2 ^ 10 % 16) 1 ((foldable.slice 0).media.refresh.contains (0, true)) = some 16 ∧
    (((after (.foldOpen 0 0) foldable).slice 0).media.foldSet 0).map (fun f => (f.key, f.blk, f.page, f.gen)) = [(0, 16, 0, 7)] ∧
    ((after (.foldOpen 0 0) foldable).slice 0).media.entry 0 = ⟨100, .mapped, 2, 8, true⟩ ∧ ((after (.foldOpen 0 0) foldable).slice 0).media.overlay.map (·.2.captured) = [true] := by decide +kernel

/-- A member of the open fold set of channel 0. -/
def member (page verified : Nat) : FoldMember := ⟨0, 0, 16, some 100, 7, 1, page, verified, 0, [], false, 0, []⟩

/-- The fold of logical block 0 is open. -/
def folding (page verified : Nat) : State := (after (.foldOpen 0 0) foldable).updMedia 0 (fun m => { m with folds := [(0, [member page verified])] })

theorem witness_FoldsRun_program : ((folding 1023 928).slice 0).media.foldSet (0 : ChanId).val = [member 1023 928] ∧ (member 1023 928).page < 1024 ∧ (member 1023 928).page < (member 1023 928).verified + 96 ∧
    SMap.get? (((folding 1023 928).chan 0 0).dies[(0 : DieId)]).banks (16 % 16) = none ∧ ((folding 1023 928).chan 0 0).workDone (.fold 0) = true ∧
    ((folding 1023 928).chan 0 0).foldIdle (member 1023 928) = true ∧ SMap.getD ((folding 1023 928).slice 0).media.health (0 : ChanId).val 0 ≠ 4 ∧ (folding 1023 928).pageSeal 0 (0 * 1024 + 1023) = none ∧
    ((folding 1023 928).slice 0).media.resolve (0 * 1024 + 1023) 0 true = .media false 100 1023 := by decide +kernel

/-- What four failing reads of every line of a page bring, enough for the whole ladder. -/
def ladderEnd : List (Nat × List Sense) := (List.range 64).map (fun i => (i, List.replicate 60 ⟨0, 0, 0⟩))

theorem witness_FoldsRun_gathered : ∀ i ∈ List.range 64, (folding 1023 928).lineOpen 0 (0 * 1024 + 1023) i (((folding 1023 928).slice 0).media.resolve (0 * 1024 + 1023) (i / 4) true) ladderEnd false = false := by decide +kernel

/-- The member's row has been asked for, or not. -/
def rowAsked (asked : Bool) : State := (folding 1024 1022).updMedia 0 (fun m => { m with folds := [(0, [{ member 1024 1022 with asked := asked, images := [(1022, 5)] }])] })

/-- The page that a fold wrote, as its reads bring it. -/
def goodPage : PageRead := ⟨pageTag (tagContents 0x2D 0 1022 7 1 0 0xFFFF 100), List.replicate 64 cw0⟩

set_option maxRecDepth 100000 in
theorem goodPage_passes : pagePasses 0xFFFF goodPage = true ∧ pagePasses 0xFFFF ⟨[], []⟩ = false := by decide +kernel

theorem witness_FoldsRun_verify : ((rowAsked false).slice 0).media.foldSet (0 : ChanId).val = [{ member 1024 1022 with images := [(1022, 5)] }] ∧ ((rowAsked false).slice 0).media.rowParity 0 1022 = some 5 ∧ 4 ≠ SMap.getD ((rowAsked false).slice 0).media.health (0 : ChanId).val 0 ∧ (member 1024 1022).verified = 1022 ∧ (member 1024 1022).asked = false ∧
    min 1024 (1022 + 2) ≤ (member 1024 1022).page ∧ ((rowAsked false).chan 0 0).foldIdle (member 1024 1022) = true ∧
    (((after (.foldRowVerify 0 0 1022 []) (rowAsked false)).slice 0).media.foldSet 0).map (fun f => (f.key, f.asked, f.verified)) = [(0, true, 1022)] ∧
    (((after (.foldRowVerify 0 0 1022 []) (rowAsked false)).chan 0 0).arb.queue.map (fun r => (r.sq == .readTag, r.page))).head? = some (true, 1022) := by decide +kernel

set_option maxRecDepth 100000 in
theorem witness_FoldsRun_parity : ((after (.foldRowVerify 0 0 1022 []) (rowAsked false)).slice 0).media.rowParity 0 1022 = some 5 ∧
    ((after (.foldRowVerify 0 0 1022 [(0, goodPage)]) (rowAsked true)).slice 0).media.rowParity 0 1022 = none := by decide +kernel

set_option maxRecDepth 100000 in
theorem witness_FoldsRun_verified : (((rowAsked true).slice 0).media.foldSet (0 : ChanId).val).map (fun f => (f.asked, ((rowAsked true).chan 0 0).workDone (.fold f.key))) = [(true, true)] ∧
    (((after (.foldRowVerify 0 0 1022 [(0, goodPage)]) (rowAsked true)).slice 0).media.foldSet 0).map (fun f => (f.key, f.verified)) = [(0, 1023)] ∧
    ((after (.foldRowVerify 0 0 1022 [(0, ⟨[], []⟩)]) (rowAsked true)).slice 0).media.foldSet 0 = [] ∧
    ((after (.foldRowVerify 0 0 1022 [(0, ⟨[], []⟩)]) (rowAsked true)).slice 0).media.urgent.contains 0 = true := by decide +kernel

theorem witness_FoldsRun_commit : (((folding 1024 1024).slice 0).media.foldSet (0 : ChanId).val).find? (fun f => f.die == 0) = some (member 1024 1024) ∧ (member 1024 1024).verified = 1024 ∧
    (member 1024 1024).old ≠ some (member 1024 1024).blk ∧ ((folding 1024 1024).slice 0).media.deadDies.contains (0 / 2 ^ 14) = false ∧
    ((after (.foldCommit 0 0 0) (folding 1024 1024)).slice 0).media.entry 0 = ⟨16, .mapped, 7, 8, false⟩ ∧ ((after (.foldCommit 0 0 0) (folding 1024 1024)).slice 0).media.overlay = [] ∧
    (((after (.foldCommit 0 0 0) (folding 1024 1024)).slice 0).media.block 0 0 16).use = .data ∧ (((after (.foldCommit 0 0 0) (folding 1024 1024)).slice 0).media.block 0 0 100).use = .released := by decide +kernel

/-- A block of die 0 was released 16 beat events ago. -/
def released : State := base.updMedia 0 (fun m => m.putBlock 0 0 16383 { blockAt 9 with use := .released, freed := 2 ^ 26 - 16 })

theorem witness_FoldsRun_reset : ((released.slice 0).media.block (0 : ChanId).val (0 : DieId).val 16383).use = .released ∧ ((released.slice 0).media.block (0 : ChanId).val (0 : DieId).val 16383).freed + 16 ≤ released.beat.events ∧
    SMap.getD (released.slice 0).media.health (0 : ChanId).val 0 ≠ 4 ∧ (released.slice 0).media.deadDies.contains ((0 : ChanId).val * 8 + (0 : DieId).val) = false ∧
    (released.chan 0 0).workDone (.reset (0 : DieId).val 16383) = true ∧ ((released.chan 0 0).dies[(0 : DieId)]).banks = [] ∧
    ((after (.blockReset 0 0 0 16383) released).chan 0 0).arb.queue.map (fun r => (r.sq, r.block, r.page)) = [(.resetBlock, 16383, 1)] := by decide +kernel

/-- A die whose journal has a ring of two blocks, and one live page in the older. -/
def ringed (failed ahead : List Nat) (gc : Option Gc) : State := reg.updMedia 0 (fun m => { m with
  journals := [(0, ⟨[20, 21], 511, ahead, [], failed⟩)]
  overlay := [(5, ⟨20, 4, 1, .block, false, 0, 3⟩)]
  blocks := [(20, { blockAt 9 with use := .journal }), (21, { blockAt 9 with use := .journal })]
  gcs := match gc with | some g => [(0, g)] | none => [] })

set_option maxRecDepth 100000 in
theorem witness_JournalsAreCollected_start : SMap.get? ((ringed [21] [] none).slice 0).media.gcs ((0 : ChanId).val * 8 + (0 : DieId).val) = none ∧ (((ringed [21] [] none).slice 0).media.journal 0).failed = [21] ∧
    (((ringed [21] [] none).slice 0).media.journal 0).ring.contains 21 = true ∧ ((after (.gcStart 0 0 0) (ringed [21] [] none)).slice 0).media.gcs = [(0, ⟨21, []⟩)] ∧
    (((after (.gcStart 0 0 0) (ringed [21] [] none)).slice 0).media.journal 0).headPage = 512 ∧
    ((ringed [] [] none).slice 0).media.pagesAhead 0 < 2048 ∧ (((ringed [] [] none).slice 0).media.journal 0).ring.dropLast.getLast? = some 20 ∧ ((ringed [] [] none).slice 0).media.collect = [] ∧
    ((after (.gcStart 0 0 0) (ringed [] [] none)).slice 0).media.gcs = [(0, ⟨20, []⟩)] ∧
    2048 ≤ ((ringed [] [22, 23, 24, 25] none).slice 0).media.pagesAhead 0 ∧ after (.gcStart 0 0 0) (ringed [] [22, 23, 24, 25] none) = ringed [] [22, 23, 24, 25] none := by decide +kernel

/-- What one good read of each of the first four lines of a page brings. -/
def fourLines : List (Nat × List Sense) := (List.range 4).map (fun i => (i, [⟨cw0, 0, 0⟩]))

set_option maxRecDepth 100000 in
theorem witness_JournalsAreCollected_take : ((ringed [] [] (some ⟨20, []⟩)).slice 0).media.livePages (0 : ChanId).val (0 : DieId).val 20 = [5] ∧ ((ringed [] [] (some ⟨20, []⟩)).slice 0).media.liveCopies ⟨20, []⟩ = [] ∧
    ((ringed [] [] (some ⟨20, []⟩)).slice 0).media.drains = [] ∧ (ringed [] [] (some ⟨20, []⟩)).pageSeal 0 5 = none ∧
    (∀ i ∈ List.range 64, (1 : BitVec 16).getLsbD (i / 4) = true → (ringed [] [] (some ⟨20, []⟩)).lineOpen 0 5 i (.media true 20 4) fourLines false = false) ∧
    SMap.get? ((ringed [] [] (some ⟨20, []⟩)).slice 0).media.overlay 5 = some ⟨20, 4, 1, .block, false, 0, 3⟩ ∧ (((ringed [] [] (some ⟨20, []⟩)).slice 0).media.journal 0).ring.getLast? = some 21 ∧
    ((ringed [] [] (some ⟨20, []⟩)).chan 0 0).workDone (.gc (0 : DieId).val) = true := by decide +kernel

set_option maxRecDepth 100000 in
theorem witness_JournalsAreCollected_taken :
    ((after (.gcPageCopy 0 0 0 fourLines ⟨[], []⟩) (ringed [] [] (some ⟨20, []⟩))).slice 0).media.gcs = [(0, ⟨20, [⟨5, 21, 511, 1, false, false⟩]⟩)] := by decide +kernel

/-- A page has been copied, its verification asked for or not, and passed or not. -/
def copied (asked verified : Bool) : State := ringed [] [] (some ⟨20, [⟨5, 21, 511, 8, asked, verified⟩]⟩)

theorem witness_JournalsAreCollected_ask : SMap.get? (((copied false false).chan 0 0).dies[(0 : DieId)]).banks (21 % 16) = none ∧ ((copied false false).chan 0 0).workDone (.gc 0) = true ∧
    ((copied false false).slice 0).media.liveCopies ⟨20, [⟨5, 21, 511, 8, false, false⟩]⟩ = [⟨5, 21, 511, 8, false, false⟩] ∧ ((copied false false).slice 0).media.livePages 0 0 20 = [5] ∧
    ((after (.gcPageCopy 0 0 0 [] ⟨[], []⟩) (copied false false)).slice 0).media.gcs = [(0, ⟨20, [⟨5, 21, 511, 8, true, false⟩]⟩)] ∧
    (((after (.gcPageCopy 0 0 0 [] ⟨[], []⟩) (copied false false)).chan 0 0).arb.queue.map (fun r => (r.sq == .readTag, r.block, r.page))).head? = some (true, 21, 511) := by decide +kernel

set_option maxRecDepth 100000 in
theorem witness_JournalsAreCollected_back : pagePasses 1 goodPage = true ∧ pagePasses 1 ⟨[], []⟩ = false ∧
    ((after (.gcPageCopy 0 0 0 [] goodPage) (copied true false)).slice 0).media.gcs = [(0, ⟨20, [⟨5, 21, 511, 8, true, true⟩]⟩)] ∧
    ((after (.gcPageCopy 0 0 0 [] goodPage) (copied true false)).slice 0).media.overlay = ((copied true false).slice 0).media.overlay ∧
    ((after (.gcPageCopy 0 0 0 [] ⟨[], []⟩) (copied true false)).slice 0).media.gcs = [(0, ⟨20, []⟩)] := by decide +kernel

theorem witness_JournalsAreCollected_move : SMap.get? ((copied true true).slice 0).media.overlay 5 = some ⟨20, 4, 1, .block, false, 0, 3⟩ ∧
    ((after (.gcPageCopy 0 0 0 [] ⟨[], []⟩) (copied true true)).slice 0).media.overlay = [(5, ⟨21, 511, 1, .block, false, 0, 8⟩)] ∧
    ((after (.gcPageCopy 0 0 0 [] ⟨[], []⟩) (copied true true)).slice 0).media.gcs = [(0, ⟨20, []⟩)] := by decide +kernel

theorem witness_JournalsAreCollected_release : ∀ s ∈ [(ringed [] [] (some ⟨20, []⟩)).updMedia 0 (fun m => { m with overlay := [] })], (s.slice 0).media.livePages (0 : ChanId).val (0 : DieId).val 20 = [] ∧
    ((after (.gcRelease 0 0 0) s).slice 0).media.gcs = [] ∧ (((after (.gcRelease 0 0 0) s).slice 0).media.journal 0).ring = [21] ∧ (((after (.gcRelease 0 0 0) s).slice 0).media.block 0 0 20).use = .released := by decide +kernel

/-- A record of map journal, so many beat events old. -/
def mapLog (age : Nat) : MapLog := ⟨1, 2 ^ 26 - age, .overlayClear 5⟩

/-- Slice 0 with a record to copy, and the copy of so many under way. -/
def mapWaits (n : Nat) : State := base.updMedia 0 (fun m => { m with
  buffer := [mapLog 48]
  copying := n
  blocks := (List.range 69).map (fun i => (64 * 16384 + i, { blockAt 9 with use := .reserved })) })

theorem witness_JournalsAreCollected_map : ((mapWaits 0).slice 0).media.buffer = [mapLog 48] ∧ (mapLog 48).at' + 48 ≤ (mapWaits 0).beat.events ∧
    ((after (.mapRecordMandatory 0) (mapWaits 0)).slice 0).media.copyDue = true ∧ (mapWaits 0).areaUp 0 0 = true ∧ (mapWaits 0).areaIdle 0 .mapCopy Media.ringBlocks = true ∧
    ((mapWaits 0).slice 0).media.copyBad = false ∧ ((mapWaits 0).slice 0).media.flying = 0 := by decide +kernel

set_option maxRecDepth 100000 in
theorem witness_JournalsAreCollected_copying : ((after (.mapJournalCopy 0) (mapWaits 0)).slice 0).media.copying = 1 ∧ ((after (.mapJournalCopy 0) (mapWaits 0)).slice 0).media.ring = [] ∧
    ((after (.mapJournalCopy 0) (mapWaits 0)).chan 0 8).arb.queue.all (fun r => r.rq == .fw && r.work == .mapCopy) = true ∧ ((after (.mapJournalCopy 0) (mapWaits 0)).chan 0 8).arb.queue ≠ [] := by decide +kernel

theorem witness_JournalsAreCollected_mapped : (mapWaits 1).areaIdle 0 .mapCopy Media.ringBlocks = true ∧
    ((after (.mapJournalCopy 0) (mapWaits 1)).slice 0).media.ring = [mapLog 48] ∧ ((after (.mapJournalCopy 0) (mapWaits 1)).slice 0).media.ringB = [mapLog 48] ∧
    ((after (.mapJournalCopy 0) (mapWaits 1)).slice 0).media.buffer = [] := by decide +kernel

/-- A checkpoint of area A that comes next to this page. -/
def ckptAt (page : Nat) : State := base.updMedia 0 (fun m => { m with ckpt := some ⟨true, ⟨7, [], [], [], []⟩, page, false⟩ })

theorem witness_JournalsAreCollected_page : (ckptAt 0).working 0 = true ∧ (ckptAt 0).timeRec.pass = 0 ∧ (ckptAt 0).areaUp 0 0 = true ∧ 0 < ckptPages ∧
    (ckptAt 0).areaIdle 0 .ckpt (fun m j => m.ckptBlocks j true) = true ∧ ((after (.checkpoint 0) (ckptAt 0)).slice 0).media.ckpt.map (·.page) = some 1 ∧
    ((after (.checkpoint 0) (ckptAt 0)).chan 0 0).arb.queue.length = 17 := by decide +kernel

theorem witness_JournalsAreCollected_pages : (ckptAt 17408).areaIdle 0 .ckpt (fun m j => m.ckptBlocks j true) = true ∧ ckptPages = 17408 ∧ ((after (.checkpoint 0) (ckptAt 17408)).slice 0).media.ckpt = none ∧
    ((after (.checkpoint 0) (ckptAt 17408)).slice 0).media.ckA = some ⟨7, [], [], [], []⟩ ∧
    ((after (.checkpoint 0) (ckptAt 17408)).slice 0).media.buffer.map (·.rec') = [.checkpoint true 7] := by decide +kernel

/-! ## Trees -/

/-- A drain of slice 7 writes node 5 of level 8, which is as old as a node may be before its write-back turns mandatory. -/
def nodeDrain : State := base.updMedia 7 (fun m => { m with drains := [⟨9, 3, 20, 511, 0, 0, 1, .block, 0, true, [], false, false, false, 0, [⟨8, 5, 2 ^ 26 - 65536, false⟩]⟩] })

theorem witness_TreesAreKept_drained : ((after (.treeWritebackDeadline 7 8 5) nodeDrain).slice 7).media.drains.map (fun d => (d.mandatory, d.nodes.map (·.due))) = [(true, [true])] ∧
    ((after (.treeWritebackDeadline 7 8 6) nodeDrain).slice 7).media.drains.map (fun d => (d.mandatory, d.nodes.map (·.due))) = [(false, [false])] := by decide +kernel

theorem witness_TreesAreKept_deadline : ∀ s ∈ [base.updSlice 7 (fun x => { x with tree := { x.tree with dirty := [⟨8, 7, 2 ^ 26 - 65536, false⟩, ⟨8, 6, 2 ^ 26 - 65535, false⟩] } })],
    ((s.slice 7).tree.dirty.map (fun n => decide (n.since + (s.slice 7).pacer.parm.tree ≤ s.beat.events))) = [true, false] ∧
    ((after (.treeWritebackDeadline 7 8 7) s).slice 7).tree.dirty.map (·.due) = [true, false] ∧ ((after (.treeWritebackDeadline 7 8 6) s).slice 7).tree.dirty.map (·.due) = [false, false] := by decide +kernel

/-- Node 3 of level 8 has changed on slice 7, whose tree top is placed. -/
def treed : State := base.updSlice 7 (fun x => { x with
  tree := { x.tree with dirty := [⟨8, 3, 0, false⟩], top := some 100 }
  media := { x.media with journals := (List.range 128).map (fun n => (n, ⟨[20], 511, [21], [], []⟩)) } })

/-- Where node 3 of level 8 of slice 7 stands. -/
def place83 : Place × Nat := (treed.treePlace 7 8 3).getD (⟨0, 0, 0, 0, 0, 0⟩, 64)

theorem witness_TreesAreKept_writeback : (∃ n ∈ (treed.slice 7).tree.dirty, n.level = 8 ∧ n.idx = 3) ∧ treed.treePlace 7 8 3 = some place83 ∧ place83.2 < 64 ∧
    substitute treed.mediaRec.absent 17 place83.1 = .at place83.1 ∧ (∀ d ∈ (treed.slice 7).media.drains, d.key / 2 ^ 24 ≠ place83.1.pageKey / 2 ^ 24) ∧
    (treed.slice 7).media.ovRoom place83.1.pageKey = true ∧ ((treed.slice 7).media.entry (place83.1.pageKey / 1024)).st ≠ .dead ∧ treed.pageNeeds 7 place83.1.pageKey = [] ∧
    treed.notAhead 7 place83.1.pageKey = true ∧ treed.pageSeal 7 place83.1.pageKey = none ∧
    treed.nodeTurn 7 8 = true ∧ (treed.slice 7).media.hasHead (place83.1.pageKey / 2 ^ 24) = true ∧ readsSound treed 7 place83.1.pageKey = true ∧
    (∀ n ∈ List.range 64, ∀ c ∈ [true, false], treed.lineOpen 7 place83.1.pageKey n ((treed.slice 7).media.resolve place83.1.pageKey (n / 4) false) sound.olds c = false) ∧
    ((treed.slice 7).media.journal (place83.1.pageKey / 2 ^ 27 % 16 * 8 + place83.1.pageKey / 2 ^ 24 % 8)).ring.getLast? = some 20 ∧
    ((after (.treeNodeWriteback 7 8 3 sound) treed).slice 7).tree.dirty = [] ∧ ((after (.treeNodeWriteback 7 8 3 sound) treed).slice 7).tree.root[3]? = some (treed.parentCount 7 8 3 + 1) := by decide +kernel

/-- A frame of slice 7 whose first dirty beat is more than 2^26 beats old. -/
def agedFrame : State := base.updFront 7 (fun f => { f with
  dir := [(9, ⟨4, true, 1, 1, false, false, false, 0, 0⟩)]
  frames := [(9, ⟨⟨4, true, 1, 1, 0, 0⟩, ⟨4, true, 1, 1, 0, BitVec.ofNat 48 (2 ^ 40 - 2 ^ 26 - 1)⟩, 4, true, [], []⟩)] })

theorem witness_TreesAreKept_aged : (agedFrame.slice 7).pacer.parm.maxAge ≠ 0 ∧ ((agedFrame.slice 7).front.entry 9).present = true ∧ ((agedFrame.slice 7).front.entry 9).dirty ≠ 0 ∧
    2 ^ (agedFrame.slice 7).pacer.parm.maxAge < (agedFrame.beat.now.setWidth 48 - ((agedFrame.slice 7).front.frame 9).hdrB.firstDirty).toNat ∧ 9 ∉ (agedFrame.slice 7).front.aged ∧
    ((after (.frameDirtyAgeExpire 7 9) agedFrame).slice 7).front.aged = [9] := by decide +kernel

/-- A Sealed region's group 0 on slice 0, its leaf and leaf-parent and both its frames in the front store; the leaf-parent holds this major. -/
def grouped (major : Nat) (dev : Bool) : State :=
  let s : State := { mapped { desc1 with mode := .sealed, keyId := 1, tree := [(0, 0, 4, 2)] } with keys := [(1, { slot1 with dev := dev })] }
  let s := [(0, zeroLine), (32, zeroLine), (treeLine 0 0 0, 0x99), (treeLine 0 1 0, BitVec.ofNat 512 (major + 2 ^ 40 * 5))].foldl
    (fun s x => s.commitLine 0 none x.1 (BitVec.allOnes 64) x.2 false) s
  s.updMedia 0 (fun m => { m with reencs := [0] })

theorem witness_TreesAreKept_unmapped : ∀ s ∈ [base.updMedia 0 (fun m => { m with reencs := [0] })], (s.slice 0).media.reencs.contains 0 = true ∧ s.regionAt (0 * 4096) = none ∧
    ((after (.groupReencryption 0 0 []) s).slice 0).media.reencs = [] := by decide +kernel

set_option maxRecDepth 100000 in
theorem witness_TreesAreKept_reencryption : ∀ s ∈ [grouped (2 ^ 40 - 2) false], (s.slice 0).media.reencs.contains 0 = true ∧ (s.regionAt (0 * 4096)).map (·.1) = some 5 ∧ s.lineSeal (0 * 64) = some 0 ∧
    s.nodeLine 0 0 0 = some 0x99 ∧ (s.nodeLine 0 1 (0 / 8)).map (fun n => (nodeEntry n (0 % 8)).toNat % 2 ^ 40) = some (2 ^ 40 - 2) ∧ 0 * 4096 < treeBase ∧
    SMap.sorted (s.slice 0).front.dir = true ∧ SMap.sorted (s.slice 0).front.spill = true ∧ (s.slice 0).front.spill.length < 2046 ∧
    ((s.slice 0).front.find (0 * 2)).map (·.2.retired) = some false ∧ ((s.slice 0).front.find (0 * 2 + 1)).map (·.2.retired) = some false ∧
    (∀ n ∈ List.range 64, ∀ pk ∈ (s.pageOf (0 * 64 + n)).toList, s.lineOpen 0 pk n ((s.slice 0).media.resolve pk (n / 4) false) [] true = false) := by decide +kernel

/-- The same group at its last major, while the region is rekeyed. -/
def regrouped : State := let s := grouped (2 ^ 40 - 1) false; { s with desc := s.desc.map (fun e => (e.1, { e.2 with st := .rekeying })) }

set_option maxRecDepth 100000 in
theorem witness_TreesAreKept_restart : ∀ s ∈ [regrouped], (s.slice 0).media.reencs.contains 0 = true ∧ (s.regionAt (0 * 4096)).map (fun x => (x.1, x.2.1.st)) = some (5, .rekeying) ∧
    s.lineSeal (0 * 64) = some 0 ∧ s.nodeLine 0 0 0 = some 0x99 ∧ (s.nodeLine 0 1 (0 / 8)).map (fun n => (nodeEntry n (0 % 8)).toNat % 2 ^ 40) = some (2 ^ 40 - 1) ∧
    (2 ^ 40 - 1 + 1) % 2 ^ 40 = 0 ∧ ((s.slice 0).front.find (0 * 2)).map (·.2.retired) = some false ∧ ((s.slice 0).front.find (0 * 2 + 1)).map (·.2.retired) = some false := by decide +kernel

set_option maxRecDepth 100000 in
theorem witness_TreesAreKept_last : ∀ s ∈ [grouped (2 ^ 40 - 1) false], (s.slice 0).media.reencs.contains 0 = true ∧ (s.regionAt (0 * 4096)).map (fun x => (x.1, x.2.1.keyId)) = some (5, 1) ∧
    s.lineSeal (0 * 64) = some 0 ∧ s.nodeLine 0 0 0 = some 0x99 ∧ (s.nodeLine 0 1 (0 / 8)).map (fun n => (nodeEntry n (0 % 8)).toNat % 2 ^ 40) = some (2 ^ 40 - 1) ∧
    (SMap.get? s.keys 1).map (·.dev) = some false ∧ s.warnedOf (5 + 65536) = false ∧
    ((after (.groupReencryption 0 0 []) s).slice 0).tree.warned = [5 + 65536] := by decide +kernel

/-- A region record with n entries of index. -/
def bigLog (n : Nat) : MapLog := ⟨1, 0, .region 5 none (List.replicate n (0, 0)) 0 0⟩

/-- Slice 0 with that record in its ring. -/
def bigRing (n : Nat) : State := base.updMedia 0 (fun m => { m with ring := [bigLog n] })

theorem body_le_bytes (r : MapLog) : r.rec'.body.2.length ≤ r.bytes.length := by
  simp only [MapLog.bytes, List.length_append]; omega

theorem bytes_of_bigLog (n : Nat) : 8 * n ≤ (bigLog n).bytes.length := by
  refine Nat.le_trans ?_ (body_le_bytes _)
  have h (n v : Nat) : (leBytes n v).length = n := by simp [leBytes]
  simp [bigLog, MapRec.body, h]
  omega

theorem bytes_of_bigRing (n : Nat) : ((bigRing n).slice 0).media.ringBytes = (bigLog n).bytes.length := by
  have h : ((bigRing n).slice 0).media.ring = [bigLog n] := rfl
  have h' : ((bigRing n).slice 0).media.ringB = [] := rfl
  simp only [Media.ringBytes, recBytes, h, h', List.foldl, Nat.zero_add, Nat.max_zero]

theorem witness_JournalsAreCollected_checkpoint : (bigRing 8400000).timeRec.pass = 0 ∧ 64 * 2 ^ 20 < ((bigRing 8400000).slice 0).media.ringBytes ∧ ((bigRing 8400000).slice 0).media.ckpt = none := by
  refine ⟨rfl, ?_, rfl⟩
  rw [bytes_of_bigRing]
  exact Nat.lt_of_lt_of_le (by decide) (bytes_of_bigLog 8400000)

/-! ## Resets, clocks, debug -/

/-- A mapped device with a key, a cause recorded, PERST_L held low on head 3, and a command waiting. -/
def resettable : State :=
  let s := (mapped desc1).updHead 3 (fun h => { h with lsa := [(1, 7)], cause := ⟨0x41, 3, 0xFF⟩, held := 5 })
  { s with
    keys := [(1, slot1)]
    pending := [.beatLost 3000] }

theorem witness_ResetsReachWhatTheyCover_cold : ∀ p ∈ [(Instr.powerOnReset, false), (.brownOut 1000, true)], (after p.1 resettable).desc = [] ∧ (after p.1 resettable).keys = [] ∧
    (after p.1 resettable).rst.brown = p.2 ∧ (after p.1 resettable).pending = [.beatLost 3000] ∧ ((after p.1 resettable).head 3).lsa = [(1, 7)] ∧ ((after p.1 resettable).head 3).held = 5 ∧
    ((after p.1 resettable).head 3).cause.lastReach = 1 ∧ ((after p.1 resettable).head 3).cause.bits = (if p.2 then 2 else 1) ∧ ((after p.1 resettable).slice 7).ok = false := by decide +kernel

theorem witness_ResetsReachWhatTheyCover_warm : resettable.rst.pinHeld = false ∧ resettable.power.flush = .idle ∧ resettable.firm.store = none ∧ resettable.starting = false ∧ resettable.discards = [] ∧ (resettable.slice 7).media.drains = [] ∧ (∀ j, (resettable.chan 7 j).tenures = []) ∧
    (after (.resetPin 1000) resettable).rst.todo = warmSteps ∧ (after (.resetPin 1000) resettable).keys = [(1, slot1)] ∧ (after (.resetPin 1000) resettable).desc = [(5, desc1)] ∧
    ((after (.resetPin 1000) resettable).head 3).cause.bits = 0x45 ∧ ((after (.resetPin 1000) resettable).head 3).cause.lastReach = 2 ∧
    after (.resetPin 999) resettable = resettable := by decide +kernel

theorem witness_ClocksAndDebug_clock : resettable.present 7 = true ∧ (resettable.slice 7).st ≠ .lost ∧ (resettable.slice 7).clkAlive = true ∧ resettable.rst.todo = [] ∧ (∀ q, (resettable.slice q).todo = []) ∧
    resettable.discards = [] ∧ ((after (.clockFailure 7) resettable).slice 7).backupClk = true ∧ ((after (.clockFailure 7) resettable).slice 7).todo = sliceSteps ∧
    ((after (.clockFailure 7) resettable).head 3).cause.lastReach = 3 ∧ ((after (.clockFailure 7) resettable).head 3).cause.sliceMask.getLsbD 7 = true ∧
    (after .servicePllUnlock resettable).rst.servicePll = false := by decide +kernel

/-- Debug is unlocked. -/
def debugging (s : State) : State := { s with rst := { s.rst with dbgEn := true, debugOpen := true } }

/-- The same device with debug unlocked. -/
def opened : State := debugging resettable

theorem witness_ClocksAndDebug_reset : opened.rst.debugOpen = true ∧ opened.power.flush = .idle ∧ opened.firm.store = none ∧ opened.starting = false ∧ opened.discards = [] ∧
    (after (.dbgReset false) opened).rst.mgmtDown = true ∧ (after (.dbgReset false) opened).keys = [(1, slot1)] ∧ ((after (.dbgReset false) opened).head 0).cause.bits = 0x11 ∧
    ((after (.dbgReset false) opened).head 0).cause.lastReach = 5 ∧ (after (.dbgReset true) opened).rst.todo = warmSteps ∧ (after (.dbgReset true) opened).rst.debugOpen = false := by decide +kernel

theorem witness_ClocksAndDebug_locked : resettable.rst.debugOpen = false ∧ exec (.dbgReset true) resettable = .next resettable ∧ (after .dbgEnFall opened).rst.debugOpen = false ∧
    (after (.jtagBoundaryScanInstruction true) opened).rst.boundary = true := ⟨rfl, rfl, rfl, rfl⟩

/-- Debug is unlocked while line 1 is Dirty. -/
def debug1 : State := debugging dirty1

/-- The data of a line that is wholly in the front store and not poisoned. -/
def heldData (s : State) (k : SliceId) (line : Nat) : Option Line :=
  match (s.slice k).front.look line with
  | .full w _ _ => if w.poisoned then none else some w.read
  | _ => none

theorem witness_ClocksAndDebug_memory : debug1.rst.debugOpen = true ∧ debug1.debugClear (2 ^ 44 - 64) = false ∧ debug1.debugClear 64 = true ∧ (debug1.slice (debug1.debugSlice 64)).st = .working ∧
    (debug1.slice (debug1.debugSlice 64)).front.poison.contains (64 / 64) = false ∧ heldData debug1 (debug1.debugSlice 64) (64 / 64) = some 0x99 := by decide +kernel

theorem witness_ClocksAndDebug_memory_full : said? (.debugMemoryAccess (.read 64 [])) debug1 = some (.debug 0x99 false) := by decide +kernel

theorem witness_ClocksAndDebug_memory_zero : debug1.debugClear 128 = true ∧ (debug1.slice (debug1.debugSlice 128)).front.look (128 / 64) = .miss ∧
    (debug1.lineSource (debug1.debugSlice 128) (128 / 64)).map (·.2) = some .zero ∧ said? (.debugMemoryAccess (.read 128 [])) debug1 = some (.debug 0 false) := by decide +kernel

set_option maxRecDepth 100000 in
theorem witness_ClocksAndDebug_memory_medium : ∀ s ∈ [debugging onMedium], s.rst.debugOpen = true ∧ s.debugClear 0 = true ∧ s.debugSlice 0 = 0 ∧ (s.slice 0).st = .working ∧
    (s.slice 0).front.poison.contains 0 = false ∧ (s.slice 0).front.look 0 = .miss ∧ s.debugMedia 0 0 [⟨cw0, 0, 0⟩] = some 0x5A ∧
    said? (.debugMemoryAccess (.read 0 [⟨cw0, 0, 0⟩])) s = some (.debug 0x5A false) := by decide +kernel

theorem witness_ClocksAndDebug_memory_closed : debug1.debugClear (2 ^ 44 - 64) = false ∧
    (∀ t ∈ [after (.debugMemoryAccess (.write (2 ^ 44 - 64) 7)) debug1, after (.debugMemoryAccess (.read (2 ^ 44 - 64) [])) debug1], (t.slice 0).front = (debug1.slice 0).front) := by decide +kernel

/-- Firmware does not run, and the keeper's window is on its identifier page. -/
def keeping : State := { base with
  rst := { base.rst with mgmtDown := true }
  firm := { base.firm with keeper := (6, 65535) } }

theorem witness_ClocksAndDebug_keeper : base.keeperAnswers = false ∧ said? (.keeperRead 4) base = some (.keeper none) ∧ keeping.keeperAnswers = true ∧ keeping.firm.keeper.1 = 6 ∧
    (after (.keeperWrite [6, 0xFF, 0xFF]) keeping).firm.keeper = (6, 65535) ∧ said? (.keeperWrite [6, 0]) keeping = some (.keeper (some [])) ∧
    said? (.keeperRead 2) keeping = some (.keeper (some [keeping.keeperId.getD 15 0, keeping.keeperId.getD 0 0])) := by decide +kernel

/-! ## Rails and power-fail -/

/-- A cold start at its step 04: the supplies are in range, and the first four groups are up. -/
def rising : State := { base with
  rst := { Rst.reset with todo := [4, 5, 6], coldSteps := [4, 5, 6] }
  power := { Power.reset with rails := Vector.replicate 20 ⟨true, false, false, none, 0⟩, group := 4, precond := true } }

theorem witness_RailsAreSupervised_start : rising.power.flush = .idle ∧ 4 ∈ rising.rst.todo ∧ 4 ∈ rising.rst.coldSteps ∧ (after (.coldStartPrecondition 20) { rising with power := { rising.power with precond := false } }).power.precond = true ∧
    (after (.coldStartPrecondition 19) { rising with power := { rising.power with precond := false } }).power.precond = false ∧ rising.railStep = true ∧ rising.power.precond = true ∧ rising.power.group ≤ 4 ∧
    (after .railGroupEnable rising).power.group = 5 ∧ (∀ r ∈ railGroup 4, ((after .railGroupEnable rising).power.rails[r]).en = true) ∧ (∀ r ∈ railGroup 3, ((after .railGroupEnable rising).power.rails[r]).good = true) := by decide +kernel

theorem witness_RailsAreSupervised_timeout : rising.driven 17 = true ∧ (rising.power.rails[(17 : Fin 20)]).en = true ∧ (rising.power.rails[(17 : Fin 20)]).good = false ∧
    ((after (.railUpTimeout 17 5000) rising).power.rails[(17 : Fin 20)]).failed = true ∧ (after (.railUpTimeout 17 5000) rising).railLog.failed.getLsbD 17 = true ∧
    (after (.railUpTimeout 17 4999) rising).railLog.failed.getLsbD 17 = false := by decide +kernel

theorem witness_RailsAreSupervised_sample : base.supervised 8 = true ∧ base.phase = 3 ∧ beyond (railNominal 8) 727 ((base.power.cfg.warn[8]?).getD 6) = true ∧
    ((after (.railSample 8 901) base).power.rails[(8 : Fin 20)]).mv = 901 ∧ (after (.railWarning 8 727 1000) base).railLog.warned.getLsbD 8 = true ∧
    (after (.railWarning 8 727 999) base).railLog.warned.getLsbD 8 = false ∧ beyond (railNominal 8) 728 ((base.power.cfg.warn[8]?).getD 6) = false := by decide +kernel

/-- A profile that polls every rail's regulator. -/
def polled : State := { base with power := { base.power with cfg := { base.power.cfg with pmbus := Vector.replicate 18 0x80 } } }

theorem witness_RailsAreSupervised_alert : ((polled.power.cfg.pmbus[17]?).getD 0).getLsbD 7 = true ∧ (after (.pmbAlert 17 0x1234 true) polled).power.pmbLog = [(17, some 0x1234)] ∧
    (after (.pmbAlert 17 0x1234 false) polled).power.pmbLog = [(17, none)] := by decide +kernel

/-- The device in service with its fault log armed. -/
def armed : State := base.putRailLog (fun x => { x with armed := true })

theorem witness_RailsAreSupervised_failure : armed.driven 7 = true ∧ (armed.power.rails[(7 : Fin 20)]).en = true ∧ armed.phase = 3 ∧ armed.railLog.armed = true ∧ armed.driven 9 = true ∧
    ((after (.railFailure 7 .below) armed).slice 7).st = .lost ∧ ((after (.railFailure 7 .below) armed).power.rails[(7 : Fin 20)]).recovering = some 0 ∧
    ((after (.railFailure 9 .below) armed).power.rails[(9 : Fin 20)]).recovering = none ∧ (after (.railFailure 7 .below) armed).railLog.first = 7 := by decide +kernel

/-- Rail 7 has failed and this many attempts were made. -/
def recovering (en : Bool) (n : Nat) : State := { base with power := { base.power with rails := base.power.rails.set 7 ⟨en, false, true, some n, 0⟩ } }

theorem witness_RailsAreSupervised_recovery : ((recovering false 2).power.rails[(7 : Fin 20)]).recovering = some 2 ∧ ((recovering false 2).power.rails[(7 : Fin 20)]).en = false ∧
    ((after (.railRecoveryAttempt 7 100) (recovering false 2)).power.rails[(7 : Fin 20)]).recovering = some 3 ∧ after (.railRecoveryAttempt 7 99) (recovering false 2) = recovering false 2 ∧
    ((recovering true 3).power.rails[(7 : Fin 20)]).en = true ∧ (recovering true 3).starting = false ∧ (recovering true 3).present 7 = true ∧
    ((after (.railRecovered 7 10) (recovering true 3)).slice 7).todo = sliceSteps ∧ ((after (.railRecovered 7 10) (recovering true 3)).power.rails[(7 : Fin 20)]).good = true := by decide +kernel

theorem witness_RailsAreSupervised_sram : base.phase ≠ 0 ∧ (base.power.rails[(9 : Fin 20)]).recovering = none ∧ (after .sramArrayRailLoss base).power.sramLoss = true ∧
    (after .sramArrayRailLoss base).health.viral = true ∧ ((after .sramArrayRailLoss base).slice 7).st = .lost := by decide +kernel

theorem witness_PowerFailIsFlushed_trigger : base.power.flush = .idle ∧ base.powered = true ∧ (∀ tr ∈ [FlushTrigger.pwrFail 200, .hold 200],
    (after (.powerFailTrigger tr) base).power.flush = .window ∧ (after (.powerFailTrigger tr) base).power.trigBeat = base.beat.now) ∧
    (after (.powerFailTrigger (.pwrFail 199)) base).power.flush = .idle := by decide +kernel

/-- The thermal limit has been passed. -/
def tooHot : State := { base with power := { base.power with thermShut := true } }

theorem witness_PowerFailIsFlushed_thermal : tooHot.power.flush = .idle ∧ tooHot.powered = true ∧ tooHot.power.thermShut = true ∧ (after (.powerFailTrigger .thermal) tooHot).power.thermal = true ∧
    (after (.powerFailTrigger .thermal) tooHot).power.flush = .window := by decide +kernel

/-- A flush at this point; the slices named have flushed. -/
def flushAt (f : Flush) (done : List Nat) : State :=
  { base with
    power := { base.power with flush := f, trigBeat := 2 ^ 40, projAtTrig := 900 }
    slices := Vector.ofFn (fun k : SliceId => if done.contains k.val then { slice1 with flushed := true } else slice1) }

theorem witness_PowerFailIsFlushed_window : (flushAt .window [0, 1, 2, 3, 4, 5, 6]).power.flush = .window ∧ (flushAt .window [0, 1, 2, 3, 4, 5, 6]).present 7 = true ∧
    ((flushAt .window [0, 1, 2, 3, 4, 5, 6]).slice 7).st = .working ∧ ((flushAt .window [0, 1, 2, 3, 4, 5, 6]).slice 7).flushed = false ∧
    (after (.acceptanceWindowClose 2000) (flushAt .window [0, 1, 2, 3, 4, 5, 6])).power.flush = .drain ∧
    (after (.acceptanceWindowClose 1999) (flushAt .window [0, 1, 2, 3, 4, 5, 6])).power.flush = .window := by decide +kernel

theorem witness_PowerFailIsFlushed_slice : ∀ s ∈ [flushAt .drain [], flushAt .drain [0, 1, 2, 3, 4, 5, 6]], s.power.flush = .drain ∧ s.present 7 = true ∧ (s.slice 7).st = .working ∧ s.nothingLeft 7 = true ∧
    (s.slice 7).front.poison = [] ∧ (s.slice 7).tree.dirty = [] ∧ ((after (.flushSliceDone 7) s).slice 7).flushed = true := by decide +kernel

theorem witness_PowerFailIsFlushed_last : ∀ s ∈ [flushAt .drain [0, 1, 2, 3, 4, 5, 6]], s.power.thermal = false ∧ s.power.aborted = false ∧
    (∀ q, q ≠ 7 → s.present q = true → (s.slice q).st = .working ∧ (s.slice q).flushed = true) ∧ (flushAt .drain []).present 6 = true ∧ ((flushAt .drain []).slice 6).flushed = false ∧
    (after (.flushSliceDone 7) s).power.flush = .measure ∧ (after (.flushSliceDone 7) s).shut.result = 1 ∧ (after (.flushSliceDone 7) s).timeRec.l = s.beat.now := by decide +kernel

theorem witness_PowerFailIsFlushed_abort : ∀ s ∈ [flushAt .drain []], s.supervised 17 = true ∧ s.power.flush = .drain ∧ s.power.thermal = false ∧ (after (.flushAbort 17) s).power.flush = .off ∧
    (after (.flushAbort 17) s).shut.result = 2 ∧ ((after (.flushAbort 17) s).power.rails[(9 : Fin 20)]).en = false := by decide +kernel

theorem witness_PowerFailIsFlushed_measure : ∀ s ∈ [flushAt .measure [0, 1, 2, 3, 4, 5, 6, 7]], s.power.flush = .measure ∧ s.power.returned = false ∧
    (after (.holdupMarginMeasured 20001 900) s).power.flush = .off ∧ (after (.holdupMarginMeasured 20001 900) s).holdRec.margin = 20000 ∧
    (after (.holdupMarginMeasured 20001 900) s).holdRec.flush = 900 ∧ ((after (.holdupMarginMeasured 20001 900) s).power.rails[(0 : Fin 20)]).en = false := by decide +kernel

theorem witness_PowerFailIsFlushed_return : (∀ f ∈ [Flush.window, .drain, .measure], (after (.warmReturn 0) (flushAt f [])).power.returned = true) ∧ (flushAt .off []).power.thermShut = false ∧
    (after (.warmReturn 20) (flushAt .off [])).rst.todo = State.reset.rst.todo ∧ ((after (.warmReturn 20) (flushAt .off [])).head 7).cause.lastReach = 1 ∧
    (after (.warmReturn 19) (flushAt .off [])).power.flush = .off := by decide +kernel

/-! ## The start -/

/-- A start that comes next to step n, which has been tried so many times; in its cold form where said. -/
def booting (n : Fin 14) (count : Nat) (cold : Bool) : State :=
  { base with
    rst := { Rst.reset with todo := n.val :: [14, 15], coldSteps := if cold then [n.val] else [] }
    led := { led1 with boot := led1.boot.put ⟨9, (Vector.replicate 14 ⟨0, 0, false, 0⟩).set n.val ⟨0, count, false, 0⟩⟩ } }

/-- An outcome with nothing bad to it. -/
def attempt (ok cut : Bool) : BootOutcome := ⟨ok, cut, 0, false, false, [], [], [], [], [], 0, [], [], [], [], [], [], [], 0⟩

theorem witness_BootStepsRun_cut : ∀ p ∈ [((1 : Fin 14), 3), (13, 3), (7, 0)], (booting p.1 p.2 true).rst.epochWait = false ∧ (booting p.1 p.2 true).stepDue .package p.1.val = true ∧
    ((booting p.1 p.2 true).stepBegins p.1).stepCount p.1 = p.2 + 1 ∧
    ((after (.bootStepAttempt .package p.1 (attempt true true)) (booting p.1 p.2 true)).bootProg.steps[p.1]).st = 1 := by decide +kernel

theorem witness_BootStepsRun_fails : ∀ n ∈ [(1 : Fin 14), 2, 5, 6, 7, 9, 10, 12], (booting n 2 true).rst.epochWait = false ∧ (booting n 2 true).stepDue .package n.val = true ∧
    ((booting n 2 true).stepBegins n).stepCount n = 3 := by decide +kernel

theorem witness_BootStepsRun_fails_state : ∀ n ∈ [(1 : Fin 14), 2, 6, 12],
    ((after (.bootStepAttempt .package n (attempt false false)) (booting n 2 true)).bootProg.steps[n]).st = 3 := by decide +kernel

/-- The attempt fails for slice 7. -/
def attempt7 : BootOutcome := { attempt false false with badSlices := 0x80 }

theorem witness_BootStepsRun_fails_sram : (after (.bootStepAttempt .package 7 attempt7) (booting 7 2 true)).rst.failedSram = 0x80 ∧
    ((after (.bootStepAttempt .package 7 attempt7) (booting 7 2 true)).bootProg.steps[(7 : Fin 14)]).st = 3 := by decide +kernel

theorem witness_BootStepsRun_fails_caches : (∀ k ∈ (booting 10 2 true).covered .package 10, ((after (.bootStepAttempt .package 10 (attempt false false)) (booting 10 2 true)).slice k).cacheOn = false) ∧
    ((after (.bootStepAttempt .package 10 (attempt false false)) (booting 10 2 true)).bootProg.steps[(10 : Fin 14)]).st = 3 := by decide +kernel

theorem witness_BootStepsRun_trims : (booting 1 3 true).rst.coldSteps.contains 1 = true ∧ ((booting 1 3 true).stepBegins 1).stepCount 1 = 4 ∧
    (after (.bootStepAttempt .package 1 { attempt true false with trimFlash := true }) (booting 1 3 true)).rst.trimWait = true ∧
    ((after (.bootStepAttempt .package 1 { attempt true false with trimFlash := true }) (booting 1 3 true)).bootProg.steps[(1 : Fin 14)]).st = 1 := by decide +kernel

theorem witness_BootStepsRun_stops : (booting 6 3 true).rst.epochWait = false ∧ (booting 6 3 true).stepDue .package 6 = true ∧ ((booting 6 3 true).stepBegins 6).stepCount 6 = 4 ∧
    (after (.bootStepAttempt .package 6 (attempt false false)) (booting 6 3 true)).rst.stopped = true ∧
    (after (.bootStepAttempt .package 6 (attempt false false)) (booting 6 3 true)).health.causes.getLsbD 6 = true := by decide +kernel

theorem witness_BootStepsRun_done : ∀ p ∈ [((1 : Fin 14), 1), (1, 2), (7, 3), (12, 0), (13, 0)], (booting p.1 p.2 true).rst.epochWait = false ∧ (booting p.1 p.2 true).stepDue .package p.1.val = true ∧
    ((booting p.1 p.2 true).stepBegins p.1).stepCount p.1 < 5 ∧ (booting p.1 p.2 true).serdesRails = true := by decide +kernel

theorem witness_BootStepsRun_done_state : ∀ p ∈ [((1 : Fin 14), 1), (1, 2), (13, 0)],
    ((after (.bootStepAttempt .package p.1 (attempt true false)) (booting p.1 p.2 true)).bootProg.steps[p.1]).st = (if p.2 < 2 then 2 else 4) ∧
    (after (.bootStepAttempt .package p.1 (attempt true false)) (booting p.1 p.2 true)).rst.todo = [14, 15] := by decide +kernel

set_option maxRecDepth 100000 in
theorem witness_BootStepsRun_done_sram : (after (.bootStepAttempt .package 7 (attempt true false)) (booting 7 3 true)).rst.todo = [14, 15] := by decide +kernel

set_option maxRecDepth 100000 in
theorem witness_BootStepsRun_done_ports : (after (.bootStepAttempt .package 12 (attempt true false)) (booting 12 0 false)).beat.step12 = some (2 ^ 26) := by decide +kernel

/-- Step 11 of a cold start waits. -/
def waiting (e : Epoch) : State := { booting 11 1 true with
  rst := { Rst.reset with todo := [11, 12, 13], coldSteps := [11, 12, 13], epochWait := true }
  beat := { base.beat with epoch := e, due := 0, firstBeat := none } }

theorem witness_BootStepsRun_wait : (waiting .code).rst.epochWait = true ∧ (waiting .code).waitOver = true ∧ (waiting .code).timeRec.pass = 0 ∧ (waiting .code).beat.due = 0 ∧
    (after .epochWaitEnd (waiting .code)).rst.todo = [12, 13] ∧ ((after .epochWaitEnd (waiting .code)).bootProg.steps[(11 : Fin 14)]).st = 2 ∧
    (waiting Epoch.unfixed).waitOver = false ∧ (after .epochWaitEnd (waiting Epoch.unfixed)).rst.epochWait = true := by decide +kernel

theorem witness_BootStepsRun_uart : ∀ s ∈ [{ booting 6 3 true with rst := { base.rst with stopped := true } }], s.rst.stopped = true ∧ base.rst.stopped = false ∧
    ((said? .bootRecordUart s).map (fun o => match o with | .uart bs => (bs.length, field bs 0 4) | _ => (0, 0))) = some (172, 9) := by decide +kernel

end Sys2Proof.Tests
end

/-! # Host ports: ports without DATA (R66) and full event logs (R56) -/

namespace Sys2Proof.Machine

/-! ### Counters (R520, R524): what one counter holds after an event is counted -/

/-- A counter that has taken an amount, modulo 2^48. -/
def Counter.bump (c : Counter) (add : Nat) : Counter :=
  { c with value := BitVec.ofNat 48 (c.value.toNat + add), ovf := c.ovf || decide (2 ^ 48 ≤ c.value.toNat + add) }

theorem Counter.bump_value (c : Counter) (add : Nat) : (c.bump add).value = c.value + BitVec.ofNat 48 add := by
  apply BitVec.eq_of_toNat_eq
  simp [Counter.bump]

/-- Adding at counter n changes that counter, and goes on only to one that chains (event 1). -/
theorem addCounter_succ (cs : Vector Counter 16) (n add fuel : Nat) (hn : n < 16) :
    addCounter cs n add (fuel + 1) = cs.set n (cs[n].bump add) ∨
      ∃ hm : n + 1 < 16, (cs[n + 1]).event = 1 ∧ ∃ carry, addCounter cs n add (fuel + 1) = addCounter (cs.set n (cs[n].bump add)) (n + 1) carry fuel := by
  simp only [addCounter, dif_pos hn]
  split
  · split
    case isTrue hm hchain => exact .inr ⟨hm, by simpa using hchain.2, _, rfl⟩
    case isFalse => exact .inl rfl
  · exact .inl rfl

/-- Adding at counter n leaves every other counter that does not chain. -/
theorem addCounter_getElem_ne (cs : Vector Counter 16) (n add fuel : Nat) (hn : n < 16) (i : Fin 16) (hi : i.val ≠ n) (he : (cs[i]).event ≠ 1) :
    (addCounter cs n add fuel)[i] = cs[i] := by
  induction fuel generalizing cs n add with
  | zero => rfl
  | succ fuel ih =>
    have hset : (cs.set n (cs[n].bump add))[i] = cs[i] := Vector.getElem_set_ne hn i.isLt (Ne.symm hi)
    rcases addCounter_succ cs n add fuel hn with h | ⟨hm, hchain, carry, h⟩
    · simp only [h, hset]
    · have hi' : i.val ≠ n + 1 := fun hin => he (by simpa only [Fin.getElem_fin, hin] using hchain)
      simp only [h, ih _ (n + 1) carry hm hi' (by rwa [hset]), hset]

/-- The counter added at takes the amount. -/
theorem addCounter_getElem_self (cs : Vector Counter 16) (add fuel : Nat) (i : Fin 16) (he : (cs[i]).event ≠ 1) :
    (addCounter cs i.val add (fuel + 1))[i] = (cs[i]).bump add := by
  have hset : (cs.set i.val ((cs[i]).bump add))[i] = (cs[i]).bump add := Vector.getElem_set_self i.isLt
  rcases addCounter_succ cs i.val add fuel i.isLt with h | ⟨hm, -, carry, h⟩
  · simp only [h]; exact hset
  · have hkeep := addCounter_getElem_ne (cs.set i.val ((cs[i]).bump add)) (i.val + 1) carry fuel hm i (Nat.ne_of_lt (Nat.lt_succ_self _)) (by rwa [hset])
    simp only [h]; exact hkeep.trans hset

/-- What countIn does at counter n, when the event has no channel. -/
def countAt (ev : BitVec 12) (add : Nat) (cs : Vector Counter 16) (n : Nat) : Vector Counter 16 :=
  match cs[n]? with
  | some c => if c.event = ev ∧ ev ≠ 0 ∧ ev ≠ 1 then addCounter cs n add 16 else cs
  | none => cs

theorem countIn_eq_foldl (cs : Vector Counter 16) (ev : BitVec 12) (add : Nat) :
    countIn cs ev none add = (List.range 16).foldl (countAt ev add) cs := by
  simp only [countIn, true_or, and_true]
  rfl

section
variable (ev : BitVec 12) (add : Nat) (i : Fin 16) (cs : Vector Counter 16)

/-- A turn of the fold leaves a counter that does not chain, unless it is the counter's own and the event is the one it counts. -/
theorem countAt_getElem_of_ne (n : Nat) (he : (cs[i]).event ≠ 1) (hev : i.val = n → (cs[i]).event ≠ ev) : (countAt ev add cs n)[i] = cs[i] := by
  unfold countAt
  split
  case h_1 c hc =>
    obtain ⟨hn, rfl⟩ := Vector.getElem?_eq_some_iff.mp hc
    split
    case isTrue hc =>
      have hi : i.val ≠ n := fun h => hev h (by simpa only [Fin.getElem_fin, h] using hc.1)
      exact addCounter_getElem_ne cs n add 16 hn i hi he
    case isFalse => rfl
  case h_2 => rfl

theorem countAt_getElem_self (hev : (cs[i]).event = ev) (h0 : ev ≠ 0) (h1 : ev ≠ 1) : (countAt ev add cs i.val)[i] = (cs[i]).bump add := by
  have hget : cs[i.val]? = some cs[i] := Vector.getElem?_eq_getElem i.isLt
  have hat : countAt ev add cs i.val = addCounter cs i.val add 16 := by
    unfold countAt
    rw [hget]
    exact if_pos ⟨hev, h0, h1⟩
  simp only [hat]
  exact addCounter_getElem_self cs add 15 i (hev ▸ h1)

theorem foldl_countAt_getElem_of_ne (l : List Nat) (he : (cs[i]).event ≠ 1) (hl : i.val ∈ l → (cs[i]).event ≠ ev) :
    (l.foldl (countAt ev add) cs)[i] = cs[i] := by
  induction l generalizing cs with
  | nil => rfl
  | cons n l ih =>
    have hturn := countAt_getElem_of_ne ev add i cs n he (fun h => hl (h ▸ List.mem_cons_self))
    have hrest := ih (countAt ev add cs n) (by rwa [hturn]) (fun h => by rw [hturn]; exact hl (List.mem_cons_of_mem n h))
    exact hrest.trans hturn

/-- A counter that neither chains nor is set to the event keeps its contents. -/
theorem countIn_getElem_of_event_ne (he : (cs[i]).event ≠ 1) (hev : (cs[i]).event ≠ ev) : (countIn cs ev none add)[i] = cs[i] := by
  simp only [countIn_eq_foldl]
  exact foldl_countAt_getElem_of_ne ev add i cs (List.range 16) he (fun _ => hev)

/-- A counter set to the event takes the amount once, at its own turn of the fold. -/
theorem countIn_getElem_of_event (hev : (cs[i]).event = ev) (h0 : ev ≠ 0) (h1 : ev ≠ 1) : (countIn cs ev none add)[i] = (cs[i]).bump add := by
  have he : (cs[i]).event ≠ 1 := hev ▸ h1
  obtain ⟨pre, post, hsplit⟩ := List.append_of_mem (List.mem_range.mpr i.isLt)
  have hnodup : (pre ++ i.val :: post).Nodup := hsplit ▸ List.nodup_range
  obtain ⟨-, hrest, hdisjoint⟩ := List.nodup_append.mp hnodup
  have hpre : i.val ∉ pre := fun h => hdisjoint i.val h i.val List.mem_cons_self rfl
  have hpost : i.val ∉ post := (List.nodup_cons.mp hrest).1
  have hbefore := foldl_countAt_getElem_of_ne ev add i cs pre he (absurd · hpre)
  have hturn : (countAt ev add (pre.foldl (countAt ev add) cs) i.val)[i] = (cs[i]).bump add := by
    rw [countAt_getElem_self ev add i _ (by rwa [hbefore]) h0 h1, hbefore]
  have hafter := foldl_countAt_getElem_of_ne ev add i (countAt ev add (pre.foldl (countAt ev add) cs) i.val) post (by rw [hturn]; exact he) (absurd · hpost)
  simp only [countIn_eq_foldl, hsplit, List.foldl_append, List.foldl_cons]
  exact hafter.trans hturn

end

section
variable (s : State) (k : SliceId) (ev : BitVec 12) (n : Nat) (i : Fin 16)

theorem count_counter_of_event_ne (he : ((s.slice k).counters[i]).event ≠ 1) (hev : ((s.slice k).counters[i]).event ≠ ev) :
    ((s.count k ev n).slice k).counters[i] = (s.slice k).counters[i] := by
  simpa only [slice_count, if_true] using countIn_getElem_of_event_ne ev n i (s.slice k).counters he hev

theorem count_counter_of_event (hev : ((s.slice k).counters[i]).event = ev) (h0 : ev ≠ 0) (h1 : ev ≠ 1) :
    ((s.count k ev n).slice k).counters[i] = ((s.slice k).counters[i]).bump n := by
  simpa only [slice_count, if_true] using countIn_getElem_of_event ev n i (s.slice k).counters hev h0 h1

end

/-! ### A completion of a request in flight -/

section
variable (s : State) (r : Req) (data : Line) (poison : Bool) (bound : Nat)

theorem completeCxl_out_of_inflight (h : (s.head r.port).inflight.contains r.id = true) :
    ∃ dl v, (s.completeCxl r data poison bound).out = .cxl r.port r.id r.write data poison dl v (bound + r.extra) :: s.out := by
  unfold State.completeCxl
  rw [if_pos h]
  extract_lets t u
  have hu : u.out = s.out := by unfold u; split <;> simp [t]
  exact ⟨_, _, by rw [emit_out, hu]⟩

/-- A completion changes a slice at most by counting a poisoned read. -/
theorem completeCxl_slice (k : SliceId) :
    (s.completeCxl r data poison bound).slice k = s.slice k ∨ (s.completeCxl r data poison bound).slice k = (s.count r.port 0x103).slice k := by
  unfold State.completeCxl
  split
  · extract_lets t u
    have ht : t.slices = s.slices := by simp [t]
    unfold u
    split
    · exact .inr (by simp [State.slice, State.count, State.updSlice, ht])
    · exact .inl (congrArg (fun v : Vector Slice 8 => v[k]) ht)
  · exact .inl rfl

@[simp] theorem completeCxl_slice_front (k : SliceId) : ((s.completeCxl r data poison bound).slice k).front = (s.slice k).front := by
  rcases completeCxl_slice s r data poison bound k with h | h <;> simp [h]

@[simp] theorem completeCxl_slice_media (k : SliceId) : ((s.completeCxl r data poison bound).slice k).media = (s.slice k).media := by
  rcases completeCxl_slice s r data poison bound k with h | h <;> simp [h]

theorem completeCxl_counter_of_event_ne (i : Fin 16) (he : ((s.slice r.port).counters[i]).event ≠ 1) (hev : ((s.slice r.port).counters[i]).event ≠ 0x103) :
    ((s.completeCxl r data poison bound).slice r.port).counters[i] = (s.slice r.port).counters[i] := by
  rcases completeCxl_slice s r data poison bound r.port with h | h
  · rw [h]
  · rw [h, count_counter_of_event_ne s r.port 0x103 1 i he hev]

theorem completeCxl_head_logs (q : Port) : ((s.completeCxl r data poison bound).head q).logs = (s.head q).logs := by
  unfold State.completeCxl
  split
  · extract_lets t u
    have ht : (t.head q).logs = (s.head q).logs := by simp only [t, updWithheld_head, head_updHead]; split <;> simp_all
    have hu : u.head q = t.head q := by unfold u; split <;> rfl
    rw [emit_head, hu, ht]
  · rfl

end

/-! ### Acceptance of a request (R47, R48) -/

/-- The request as it is accepted: numbered, at its port, with the extra time of a 68-byte flit link (R9). -/
def State.numbered (s : State) (p : Port) (r : Req) : Req := { r with id := s.nextId, port := p, extra := s.flitExtra p }

/-- What acceptance makes of the head: a credit less, one more request in flight, the link awake. -/
def Head.take (h : Head) (write : Bool) (id : Nat) : Head :=
  if write then { h with credD := h.credD - 1, inflight := id :: h.inflight, link := h.link.map Link.wake }
  else { h with credR := h.credR - 1, inflight := id :: h.inflight, link := h.link.map Link.wake }

/-- The state that acceptance leaves before the request is decoded: its credit and number taken, its events counted. -/
def State.admitted (s : State) (p : Port) (r : Req) : State :=
  let t := ({ s with nextId := s.nextId + 1 }.updHead p (·.take r.write s.nextId)).count p (if r.write then 0x101 else 0x100)
  if r.write && r.be != BitVec.allOnes 64 then t.count p 0x102 else t

section
variable (s : State) (p : Port) (r : Req)

@[simp] theorem Head.take_logs (h : Head) (write : Bool) (id : Nat) : (h.take write id).logs = h.logs := by unfold Head.take; split <;> rfl
@[simp] theorem Head.take_inflight (h : Head) (write : Bool) (id : Nat) : (h.take write id).inflight = id :: h.inflight := by unfold Head.take; split <;> rfl
@[simp] theorem Head.take_grantedManage (h : Head) (write : Bool) (id : Nat) : (h.take write id).grantedManage = h.grantedManage := by unfold Head.take; split <;> rfl

@[simp] theorem admitted_nextId : (s.admitted p r).nextId = s.nextId + 1 := by unfold State.admitted; extract_lets; split <;> rfl
@[simp] theorem admitted_desc : (s.admitted p r).desc = s.desc := by unfold State.admitted; extract_lets; split <;> rfl
@[simp] theorem admitted_index : (s.admitted p r).index = s.index := by unfold State.admitted; extract_lets; split <;> rfl
@[simp] theorem admitted_keys : (s.admitted p r).keys = s.keys := by unfold State.admitted; extract_lets; split <;> rfl
@[simp] theorem admitted_prof : (s.admitted p r).prof = s.prof := by unfold State.admitted; extract_lets; split <;> rfl
@[simp] theorem admitted_fused : (s.admitted p r).fused = s.fused := by unfold State.admitted; extract_lets; split <;> rfl
@[simp] theorem admitted_out : (s.admitted p r).out = s.out := by unfold State.admitted; extract_lets; split <;> rfl

theorem admitted_head (q : Port) : (s.admitted p r).head q = if q = p then (s.head p).take r.write s.nextId else s.head q := by
  have h : (s.admitted p r).head q = ({ s with nextId := s.nextId + 1 }.updHead p (·.take r.write s.nextId)).head q := by
    unfold State.admitted; extract_lets; split <;> rfl
  rw [h, head_updHead]
  rfl

@[simp] theorem admitted_head_logs (q : Port) : ((s.admitted p r).head q).logs = (s.head q).logs := by
  rw [admitted_head]; split <;> simp_all

@[simp] theorem admitted_slice_front (k : SliceId) : ((s.admitted p r).slice k).front = (s.slice k).front := by
  unfold State.admitted; extract_lets t; split <;> simp [t] <;> rfl
@[simp] theorem admitted_slice_media (k : SliceId) : ((s.admitted p r).slice k).media = (s.slice k).media := by
  unfold State.admitted; extract_lets t; split <;> simp [t] <;> rfl

/-- Acceptance counts requests and partial writes (Table 17-1); a counter set to event 0x105 is not among those it adds to. -/
theorem admitted_counter (i : Fin 16) (hi : ((s.slice p).counters[i]).event = 0x105) :
    ((s.admitted p r).slice p).counters[i] = (s.slice p).counters[i] := by
  have hne : ∀ ev : BitVec 12, ev ≠ 0x105 → ((s.slice p).counters[i]).event ≠ ev := fun ev hev h => hev (h.symm.trans hi)
  have h1 : ((s.slice p).counters[i]).event ≠ 1 := hne 1 (by decide)
  unfold State.admitted
  extract_lets t
  have ht : (t.slice p).counters[i] = (s.slice p).counters[i] :=
    count_counter_of_event_ne _ p _ 1 i h1 (hne _ (by split <;> decide))
  split
  · rw [count_counter_of_event_ne t p 0x102 1 i (by rw [ht]; exact h1) (by rw [ht]; exact hne _ (by decide)), ht]
  · exact ht

theorem admitted_hasData : (s.admitted p r).hasData p = s.hasData p := by
  have hp : (s.admitted p r).present p = s.present p := present_of_fused (admitted_fused s p r) p
  simp [State.hasData, State.roles, State.profByte, hp, admitted_head]

/-- An accepted request on a port without DATA is counted in event 0x105 and completed at ingress (R66). -/
theorem request_of_noData (hpa : Nat) (de : DescErr) (ha : s.accepts p r.write = true) (hd : s.hasData p = false) :
    s.request p hpa r de = (((s.admitted p r).count p 0x105).ingressDone (s.numbered p r) (!r.write)).grantCredits := by
  have hd' : (!(s.admitted p r).hasData p) = true := by rw [admitted_hasData, hd]; rfl
  unfold State.request
  rw [if_neg (by simp [ha])]
  exact congrArg State.grantCredits (if_pos hd')

end

/-! ### Ports without DATA (R66) -/

section
variable {s : State} {p : Port} {hpa : Nat} {r : Req} {de : DescErr} (ha : s.accepts p r.write = true) (hd : s.hasData p = false)
include ha hd

theorem request_of_noData_decidedAtIngress : s.decidedAtIngress (s.request p hpa r de) p r.write (!r.write) := by
  rw [request_of_noData s p r hpa de ha hd]
  have hin : (((s.admitted p r).count p 0x105).head p).inflight.contains s.nextId = true := by simp [admitted_head]
  obtain ⟨dl, v, hout⟩ := completeCxl_out_of_inflight ((s.admitted p r).count p 0x105) (s.numbered p r) 0 (!r.write) (if r.write then 29000 else 27000) hin
  refine ⟨⟨dl, v, ?_⟩, ?_⟩
  · rw [grantCredits_out]
    exact congrArg List.head? hout
  · simp [State.ingressDone]

theorem request_of_noData_logs (q : Port) : ((s.request p hpa r de).head q).logs = (s.head q).logs := by
  rw [request_of_noData s p r hpa de ha hd, grantCredits_head_logs, State.ingressDone, completeCxl_head_logs, count_head, admitted_head_logs]

theorem request_of_noData_counter (i : Fin 16) (hi : ((s.slice p).counters[i]).event = 0x105) :
    (((s.request p hpa r de).slice p).counters[i]).value = ((s.slice p).counters[i]).value + 1 := by
  have hadm := admitted_counter s p r i hi
  have hcount : (((s.admitted p r).count p 0x105).slice p).counters[i] = ((s.slice p).counters[i]).bump 1 := by
    rw [count_counter_of_event _ p 0x105 1 i (by rw [hadm, hi]) (by decide) (by decide), hadm]
  have hevent : ((((s.admitted p r).count p 0x105).slice p).counters[i]).event = 0x105 := by rw [hcount]; exact hi
  have hdone := completeCxl_counter_of_event_ne ((s.admitted p r).count p 0x105) (s.numbered p r) 0 (!r.write) (if r.write then 29000 else 27000) i
    (by rw [show (s.numbered p r).port = p from rfl, hevent]; decide) (by rw [show (s.numbered p r).port = p from rfl, hevent]; decide)
  rw [request_of_noData s p r hpa de ha hd, grantCredits_slice]
  calc _ = ((((s.admitted p r).count p 0x105).slice p).counters[i]).value := congrArg Counter.value hdone
    _ = ((s.slice p).counters[i]).value + 1 := by rw [hcount, Counter.bump_value]; rfl
end

/-- Settles O7: the request of a port without DATA is counted, completed at ingress and goes no further. -/
theorem portsWithoutData : Obligations.PortsWithoutData := by
  unfold Obligations.PortsWithoutData
  intro s p hpa r be data psn errs de hd i w hi ha
  rcases hi with ⟨rfl, rfl⟩ | ⟨rfl, rfl⟩ <;>
    exact ⟨_, rfl, request_of_noData_decidedAtIngress ha hd, request_of_noData_logs ha hd, request_of_noData_counter ha hd⟩

/-! ### Event logs (R56) -/

/-- One head's log put in place of another. -/
def State.putLog (s : State) (p : Port) (log : LogId) (l : Log) : State := s.updHead p (fun h => { h with logs := h.logs.set (logIx log) l })

@[simp] theorem putLog_log_self (s : State) (p : Port) (log : LogId) (l : Log) : ((s.putLog p log l).head p).logs[logIx log] = l := by
  simp only [State.putLog, head_updHead_self]
  exact Vector.getElem_set_self (logIx log).isLt

@[simp] theorem putLog_dbInt (s : State) (p : Port) (log : LogId) (l : Log) : ((s.putLog p log l).head p).dbInt = (s.head p).dbInt := by
  simp [State.putLog]

theorem putLog_head_ne (s : State) {p q : Port} (hq : q ≠ p) (log : LogId) (l : Log) : (s.putLog p log l).head q = s.head q :=
  head_updHead_ne s _ hq

theorem Log.enter_of_full (l : Log) (r : EvRec) (h : 256 ≤ l.recs.length) : l.enter r = l.lose r.ts :=
  if_neg (Nat.not_lt.mpr h)

theorem msix_head_logs (s : State) (p : Port) (v : Fin 8) (q : Port) : ((s.msix p v).head q).logs = (s.head q).logs := by
  unfold State.msix
  split
  · rw [head_updHead]; split <;> simp_all
  · rfl

/-- A record entered carries the next handle; what follows is at most the log's interrupt. -/
theorem enterLog_log_self (s : State) (p : Port) (log : LogId) (r : EvRec) :
    ((s.enterLog p log r).head p).logs[logIx log] = ((s.head p).logs[logIx log]).enter { r with handle := s.firm.handle } := by
  have hput := putLog_log_self { s with firm := { s.firm with handle := s.firm.handle + 1 } } p log
    (((s.head p).logs[logIx log]).enter { r with handle := s.firm.handle })
  unfold State.enterLog
  extract_lets
  split
  · simp only [msix_head_logs]
    exact hput
  · exact hput

/-! ### A standard command of one head leaves the other heads -/

section
variable (s : State) {p q : Port} (hq : q ≠ p)
include hq

theorem msix_head_ne (v : Fin 8) : (s.msix p v).head q = s.head q := by
  unfold State.msix
  split
  · exact head_updHead_ne _ _ hq
  · rfl

theorem rung_head_ne : (s.rung (.head p)).head q = s.head q := by
  unfold State.rung
  dsimp only
  split
  · exact msix_head_ne s hq 0
  · rfl

theorem answer_head_ne (c : Rc) (r : StdReply) : (s.answer (.head p) c r).head q = s.head q := rung_head_ne _ hq

/-- A command of head p that leaves head q when it runs leaves it also when its doorbell is held or passed over. -/
theorem take_head_ne (i : Instr) (alone : Bool) (busy : Out) (run : State → State) (hrun : (run s).head q = s.head q) :
    (s.take (.head p) i alone busy run).head q = s.head q := by
  unfold State.take
  cases s.door (.head p) alone with
  | run => exact hrun
  | hold => exact head_updHead_ne s (fun h => { h with doorbells := h.doorbells ++ [i] }) hq
  | busy => rfl
  | ignore => rfl

theorem std_head_ne (i : Instr) (alone : Bool) (role : Option Nat) (sideband : Bool) (run : State → State) (hrun : (run s).head q = s.head q) :
    (s.std (.head p) i alone role sideband run).head q = s.head q := by
  refine take_head_ne s hq i alone _ _ ?_
  rw [apply_ite (State.head · q), hrun, answer_head_ne s hq, ite_self]

end

/-! ### CLEAR_EVENT_RECORDS (R56) -/

/-- What CLEAR_EVENT_RECORDS does at a head once it is taken up. -/
def State.clearLog (s : State) (p : Port) (log : LogId) (all : Bool) (hs : List Nat) : State :=
  let l := (s.head p).logs[logIx log]
  if all then (s.putLog p log Log.reset).answer (.head p) .success .none
  else if (l.recs.take hs.length).map (·.handle) = hs then
    (s.putLog p log { Log.reset with recs := l.recs.drop hs.length }).answer (.head p) .success .none
  else s.answer (.head p) .invalidHandle .none

theorem exec_clearEventRecords (s : State) (p : Port) (log : LogId) (all : Bool) (hs : List Nat) :
    exec (.clearEventRecords (.head p) log all hs) s =
      .next (s.std (.head p) (.clearEventRecords (.head p) log all hs) false none false (fun s => s.clearLog p log all hs)) := rfl

theorem clearLog_head_ne (s : State) {p q : Port} (hq : q ≠ p) (log : LogId) (all : Bool) (hs : List Nat) :
    (s.clearLog p log all hs).head q = s.head q := by
  have hput : ∀ l, ((s.putLog p log l).answer (.head p) .success .none).head q = s.head q :=
    fun l => (answer_head_ne _ hq _ _).trans (putLog_head_ne s hq log l)
  unfold State.clearLog
  extract_lets
  split
  · exact hput _
  · split
    · exact hput _
    · exact answer_head_ne s hq _ _

theorem exec_clearEventRecords_head_ne (s t : State) {p q : Port} (hq : q ≠ p) (log : LogId) (all : Bool) (hs : List Nat)
    (h : exec (.clearEventRecords (.head p) log all hs) s = .next t) : t.head q = s.head q := by
  rw [exec_clearEventRecords] at h
  rw [← Host.Outcome.next.inj h]
  exact std_head_ne s hq _ _ _ _ _ (clearLog_head_ne s hq log all hs)

/-- At a ready mailbox, clearing all records puts the log at its reset value and is answered. -/
theorem exec_clearEventRecords_all (s : State) (p : Port) (log : LogId) (hs : List Nat) (hm : s.mailReady p = true) :
    exec (.clearEventRecords (.head p) log true hs) s = .next ((s.putLog p log Log.reset).said p .success .none) := by
  have hquiet : ((s.putLog p log Log.reset).head p).dbInt = false := by rw [putLog_dbInt, dbInt_of_mailReady s p hm]
  rw [exec_clearEventRecords, std_ready_any s p hm, ← answer_quiet _ p hquiet]
  rfl

/-- Settles O9: a full log loses the new record, and a clear reaches the logs of its own head only. -/
theorem fullLogsKeepTheirOldest : Obligations.FullLogsKeepTheirOldest := by
  unfold Obligations.FullLogsKeepTheirOldest
  intro s p log
  have hothers : ∀ all hs t q, exec (.clearEventRecords (.head p) log all hs) s = .next t → q ≠ p → (t.head q).logs = (s.head q).logs :=
    fun all hs t q h hq => congrArg Head.logs (exec_clearEventRecords_head_ne s t hq log all hs h)
  refine ⟨fun r hfull l hl => ?_, hothers, fun hm hs => ?_⟩
  · rw [hl, enterLog_log_self, Log.enter_of_full _ _ hfull]
    exact ⟨rfl, rfl, rfl, rfl, rfl⟩
  · have hrun := exec_clearEventRecords_all s p log hs hm
    exact ⟨_, hrun, putLog_log_self s p log Log.reset, fun q hq => hothers true hs _ q hrun hq⟩

end Sys2Proof.Machine

/-! # Vendor commands while the power-fail flush runs (R380) -/

namespace Sys2Proof.Machine

/-- The command is a vendor command of its source and payload and does nothing beyond that: the checks of Table 11-4, then its effect. -/
def RunsAsVendor (src : Src) (pl : List Byte) (i : Instr) : Prop :=
  ∃ v run, ∀ s : State, exec i s = .next (s.vendor src i pl v run)

/-- LENS_CALIBRATE is a vendor command and then ends a sweep that has nothing left, whatever the checks have answered. -/
theorem exec_lensCalibrate_eq_sweepDone (src : Src) (pl : List Byte) :
    ∃ v run, ∀ s : State, exec (.lensCalibrate src pl) s = .next ((s.vendor src (.lensCalibrate src pl) pl v run).sweepDone src) :=
  ⟨_, _, fun _ => rfl⟩

/-- Every other vendor command does nothing beyond its checks and its effect. -/
theorem runsAsVendor_of_mem_vendorCommands (src : Src) (pl : List Byte) (dbgEn : Bool) :
    ∀ i ∈ vendorCommands src pl dbgEn, i ≠ .lensCalibrate src pl → RunsAsVendor src pl i := by
  simp only [vendorCommands, List.cons_append, List.nil_append, List.forall_mem_cons, List.not_mem_nil, false_imp_iff, implies_true, and_true]
  and_intros
  any_goals exact fun _ => ⟨_, _, fun _ => rfl⟩
  exact fun hne => absurd rfl hne

/-! ### The refusal -/

/-- Without a doorbell interrupt, an answer that turns a command away adds its response and nothing else. -/
theorem rung_emit_eq_refused {s : State} {src : Src} (hq : ∀ p, src = .head p → (s.head p).dbInt = false) (pl : List Byte) (c : Rc) (ext : Nat) :
    (s.emit (.mailbox src c (vHead ext (BitVec.ofNat 16 (field pl 0 2)).toNat ext))).rung src = s.refused src pl c ext := by
  cases src with
  | i3c => rfl
  | head p => exact if_neg (Bool.eq_false_iff.mp (hq p rfl))

section
variable {s : State} {src : Src} (hf : s.power.flush ≠ .idle) (hd : ∀ alone, s.door src alone = .run)
  (hq : ∀ p, src = .head p → (s.head p).dbInt = false)
include hf hd hq

/-- The flush turns a vendor command away before any other check, the duplicate table's among them. -/
theorem vendor_of_flushing (i : Instr) (pl : List Byte) (v : VSpec) (run : State → VRes) :
    s.vendor src i pl v run = s.refused src pl .vendorSpecific 0x0701 := by
  have hf' : (s.power.flush != .idle) = true := bne_iff_ne.mpr hf
  simp only [State.vendor, State.take, hd, hf', if_true, rung_emit_eq_refused hq]

/-- What R380 asks holds of every vendor command but LENS_CALIBRATE: refused with 0x0701, and nothing else changes. -/
theorem exec_vendorCommands_of_flushing (pl : List Byte) (dbgEn : Bool) :
    ∀ i ∈ vendorCommands src pl dbgEn, i ≠ .lensCalibrate src pl → exec i s = .next (s.refused src pl .vendorSpecific 0x0701) := by
  intro i hi hne
  obtain ⟨v, run, hexec⟩ := runsAsVendor_of_mem_vendorCommands src pl dbgEn i hi hne
  rw [hexec, vendor_of_flushing hf hd hq]

/-- LENS_CALIBRATE is refused too, but a sweep with nothing left ends behind the refusal. -/
theorem exec_lensCalibrate_of_flushing (pl : List Byte) :
    exec (.lensCalibrate src pl) s = .next ((s.refused src pl .vendorSpecific 0x0701).sweepDone src) := by
  obtain ⟨v, run, hexec⟩ := exec_lensCalibrate_eq_sweepDone src pl
  rw [hexec, vendor_of_flushing hf hd hq]

end

/-! ### The sweep that a refused LENS_CALIBRATE ends -/

@[simp] theorem refused_head (s : State) (src : Src) (pl : List Byte) (c : Rc) (ext : Nat) (p : Port) :
    (s.refused src pl c ext).head p = s.head p := rfl

theorem msix_head_bg (s : State) (p : Port) (v : Fin 8) (q : Port) : ((s.msix p v).head q).bg = (s.head q).bg := by
  unfold State.msix
  split
  · rw [head_updHead]; split <;> simp_all
  · rfl

/-- A background command that has ended runs no more. -/
theorem endBg_head_bg (s : State) (p : Port) (c : Rc) (ext : Nat) (o : Option (List Byte)) : ((s.endBg p c ext o).head p).bg = none := by
  unfold State.endBg
  split
  · assumption
  · extract_lets cut t u
    have ht : (t.head p).bg = none := by simp [t]
    have hu : (u.head p).bg = none := by cases o <;> exact ht
    split
    · exact ht
    · split
      · rw [msix_head_bg, hu]
      · exact hu

theorem sweepDone_head_bg {s : State} {p : Port} {b : Bg} {k : SliceId} (hb : (s.head p).bg = some b) (hk : b.kind = .lensSweep k []) :
    ((s.sweepDone (.head p)).head p).bg = none := by
  simp only [State.sweepDone, State.endVendor, hb, hk, List.isEmpty_nil, if_true, endBg_head_bg]

/-! ### The counterexample -/

/-- A started head 0 whose sweep of slice 0 has one combination left and is asked to abort. -/
def abortedSweep : State :=
  State.reset.updHead 0 (fun h => { h with enabled := true, mboxReady := true, bg := some ⟨.lensSweep 0 [(0, false, 0)], 0xC032, 0, 0, true, 0⟩ })

/-- That combination is sampled, which empties the sweep and, as it is to abort, does not end it; then the power-fail flush begins. -/
def sweptThenFlushing : State :=
  let s := abortedSweep.sweepStep 0 0 (false, 0)
  { s with power := { s.power with flush := .drain } }

theorem sweptThenFlushing_bg : (sweptThenFlushing.head 0).bg = some ⟨.lensSweep 0 [], 0xC032, 0, 0, true, 0⟩ := by decide +kernel

theorem sweptThenFlushing_mailReady : sweptThenFlushing.mailReady 0 = true := by decide +kernel

theorem sweptThenFlushing_flush : sweptThenFlushing.power.flush ≠ .idle := by decide +kernel

/-- Refutes O5: the refusal is not all that changes. A LENS_CALIBRATE refused during the flush ends the emptied sweep of its head, which only waits for its
abort to take effect. -/
theorem not_theFlushRefusesVendorCommands : ¬ Obligations.TheFlushRefusesVendorCommands := by
  unfold Obligations.TheFlushRefusesVendorCommands
  intro h
  have hmem : Instr.lensCalibrate (.head 0) [] ∈ vendorCommands (.head 0) [] false := by simp [vendorCommands]
  have hclaim := h sweptThenFlushing (.head 0) [] false sweptThenFlushing_flush (.inl ⟨0, rfl, sweptThenFlushing_mailReady⟩) _ hmem
  have hrun := exec_lensCalibrate_of_flushing sweptThenFlushing_flush (door_of_mailReady _ 0 sweptThenFlushing_mailReady)
    (fun p hp => Src.head.inj hp ▸ dbInt_of_mailReady _ 0 sweptThenFlushing_mailReady) []
  have hended := sweepDone_head_bg (s := sweptThenFlushing.refused (.head 0) [] .vendorSpecific 0x0701) sweptThenFlushing_bg rfl
  rw [← Host.Outcome.next.inj (hclaim.symm.trans hrun), refused_head, sweptThenFlushing_bg] at hended
  exact Option.some_ne_none _ hended

end Sys2Proof.Machine
